-- ==== Sys2Proof/Word.lean ====
section
/-! DEFINITION. The widths the spec fixes (00_scope.md §4, R10, R14): every value is an unsigned bit vector. -/

namespace Sys2Proof

/-- 8 bits: a raw bus status, a data byte, an address byte, a divisor (R10, R122, R34). -/
abbrev Byte := BitVec 8

/-- 16 bits: LEN and a result's status code (R10, R25, R26). -/
abbrev Half := BitVec 16

/-- 32 bits: a command word and every register access (R22, R91). -/
abbrev Word := BitVec 32

/-- 12 bits: one micro-op word, the alphabet of the bus trace (R100). -/
abbrev UopWord := BitVec 12

/-- 7 bits: a slave address (R10). -/
abbrev SlaveAddr := BitVec 7

/-- 2 bits: the frequency mode field, 3 being the unrecognized mode (R93). -/
abbrev ModeBits := BitVec 2

end Sys2Proof
end

