-- ==== Sys2Proof/Config.lean ====
section
/-! DEFINITION. The parameters of 00_scope.md §4 that a model takes as arguments. They are plain data, carried by
`State.cfg` and changed by nothing, so a statement about every state is a statement about every parameter value. -/

namespace Sys2Proof

/-- STATUS_CODES (R12): the seven raw statuses the translator accepts as success. -/
structure StatusCodes where
  start      : Byte
  repStart   : Byte
  mtSlaAck   : Byte
  mrSlaAck   : Byte
  mtDataAck  : Byte
  mrDataAck  : Byte
  mrDataNack : Byte
  deriving DecidableEq, Repr

/-- The default STATUS_CODES of R160. PRESUMED by the spec itself (general knowledge of the AVR two-wire
interface; log 12). -/
def StatusCodes.avr : StatusCodes where
  start      := 0x08
  repStart   := 0x10
  mtSlaAck   := 0x18
  mrSlaAck   := 0x40
  mtDataAck  := 0x28
  mrDataAck  := 0x50
  mrDataNack := 0x58

/-- DIV_TABLE (R11, R222): one 8-bit divisor for each of the modes 100k, 250k and 400k. -/
structure DivTable where
  d100 : Byte
  d250 : Byte
  d400 : Byte
  deriving DecidableEq, Repr

/-- A range of buffer addresses, both ends included, that MEM_OK does not admit for the marked directions (R61, R63).
Every predicate MEM_OK over the finite buffer space is a list of these (DESIGN CHOICE, log 17). -/
structure MemHole where
  first   : Nat
  last    : Nat
  noRead  : Bool
  noWrite : Bool
  deriving DecidableEq, Repr

/-- The parameter record of 00_scope.md §4. -/
structure Config where
  /-- ADDR_W, the buffer address width (D5, default 16). -/
  addrW        : Nat
  /-- BASE, the address of the register window (R22, R71). -/
  base         : Nat
  /-- F_CLK in Hz (R11); it gives the default divisor table. -/
  fClk         : Nat
  /-- DIV_TABLE where one is passed; `none` stands for the default, which F_CLK gives (R11, R222). -/
  divTable     : Option DivTable
  /-- STATUS_CODES (R12, R160). -/
  codes        : StatusCodes
  /-- LEGACY_READ_DEFECT (R13, R131). -/
  legacyRead   : Bool
  /-- The addresses MEM_OK refuses (R61, R63); the empty list admits every access. -/
  memHoles     : List MemHole
  deriving DecidableEq, Repr

/-- The parameter values State.reset carries: the spec's defaults where it gives one (ADDR_W 16, STATUS_CODES of R160,
LEGACY_READ_DEFECT false, the table of R222); DESIGN CHOICE (log 2) for BASE 0, F_CLK 16 MHz (the spec's example value)
and a MEM_OK that admits every access. -/
def Config.standard : Config where
  addrW      := 16
  base       := 0
  fClk       := 16000000
  divTable   := none
  codes      := StatusCodes.avr
  legacyRead := false
  memHoles   := []

end Sys2Proof
end

