-- ==== Sys2Proof/Machine/Divisor.lean ====
section
/-! DEFINITION. The bit-rate divisor table (43_configuration.md R222, R223). -/

namespace Sys2Proof

/-- f(m) of R222 in Hz; mode 3 names no frequency. -/
def targetFreq (m : ModeBits) : Option Nat :=
  if m = 0 then some 100000 else if m = 1 then some 250000 else if m = 2 then some 400000 else none

/-- R222, R223: `round(F_CLK / (2 f) - 8)`, halves rounded up. There is no entry when the formula's value is outside
0 to 255, which is `16 f ≤ F_CLK ≤ 526 f` cleared of the division (DEDUCED, log 13); nothing is clamped. -/
def defaultDivisor (fClk f : Nat) : Option Byte :=
  if 16 * f ≤ fClk ∧ fClk ≤ 526 * f then some (BitVec.ofNat 8 ((fClk - 15 * f) / (2 * f))) else none

/-- The default DIV_TABLE for F_CLK; `none` where some mode has no supported value (R223). -/
def defaultTable (fClk : Nat) : Option DivTable :=
  match defaultDivisor fClk 100000, defaultDivisor fClk 250000, defaultDivisor fClk 400000 with
  | some a, some b, some c => some { d100 := a, d250 := b, d400 := c }
  | _, _, _ => none

/-- DIV_TABLE: the table passed as a parameter, or the default one of F_CLK (R11). -/
def Config.table (c : Config) : Option DivTable :=
  match c.divTable with
  | some t => some t
  | none => defaultTable c.fClk

/-- DIV_TABLE[m] (R220, R222). Mode 3 has no entry. -/
def DivTable.entry (t : DivTable) (m : ModeBits) : Option Byte :=
  if m = 0 then some t.d100 else if m = 1 then some t.d250 else if m = 2 then some t.d400 else none

/-- R277: the nominal bus clock for divisor v, `F_CLK / (16 + 2 v)`. Timing information only: no step reads it. -/
def nominalBusClock (fClk : Nat) (v : Byte) : Rat :=
  (fClk : Rat) / (16 + 2 * (v.toNat : Rat))

end Sys2Proof
end

