-- ==== Sys2Proof/Syntax.lean ====
section
/-! DEFINITION. The nine rows of spec/opcode_table.json: the three host commands (R92) and the six micro-operations
(R101 to R106). The operand fields have exactly the widths the encoding gives them. -/

namespace Sys2Proof

inductive Instr where
  /-- INIT mode, pu (R93, R220). -/
  | init (mode : ModeBits) (pu : Bool)
  /-- TRANSMIT sla, keep (R94, R185). -/
  | transmit (sla : SlaveAddr) (keep : Bool)
  /-- RECEIVE sla (R95, R190). -/
  | receive (sla : SlaveAddr)
  /-- START micro-operation (R101, R124). -/
  | start
  /-- STOP micro-operation (R102, R125). -/
  | stop
  /-- WADDR b: the address byte b, its bit 0 the direction (R103, R126). -/
  | waddr (b : Byte)
  /-- WBYTE d (R104, R127). -/
  | wbyte (d : Byte)
  /-- RBYTE_ACK (R105, R129). -/
  | rbyteAck
  /-- RBYTE_NACK (R106, R130). -/
  | rbyteNack
  deriving DecidableEq, Repr

/-- The two formats of R90: a host command word (32 bits) or a micro-op word (12 bits). -/
def Instr.isCommand : Instr → Bool
  | .init _ _ => true
  | .transmit _ _ => true
  | .receive _ => true
  | .start => false
  | .stop => false
  | .waddr _ => false
  | .wbyte _ => false
  | .rbyteAck => false
  | .rbyteNack => false

end Sys2Proof
end

