-- ==== Sys2Proof/WellFormed.lean ====
section
/-! DEFINITION. What makes a term meaningful before any step: the admissibility of the parameters and the micro-op words
that may stand in a bus trace. An instruction needs no check of its own: every operand field of `Instr` has exactly the
width its encoding gives it (R93 to R95, R103, R104), so each term of `Instr` is a well-formed instruction. -/

namespace Sys2Proof

/-- R11: the three divisors are pairwise distinct. -/
def DivTable.distinct (t : DivTable) : Bool :=
  t.d100 != t.d250 && t.d100 != t.d400 && t.d250 != t.d400

/-- R12: the codes the source calls distinct are. -/
def StatusCodes.distinct (c : StatusCodes) : Bool :=
  c.mtSlaAck != c.mrSlaAck && c.mrDataAck != c.mrDataNack

/-- R24: BUF is a field of a 32-bit register, so ADDR_W is 1 to 32 (DEDUCED, log 3). -/
def Config.addrWOk (c : Config) : Bool := decide (1 ≤ c.addrW) && decide (c.addrW ≤ 32)

/-- D3, R71: the window base is a multiple of 4. -/
def Config.baseOk (c : Config) : Bool := c.base % 4 == 0

/-- R11, R223: there is a divisor table and its entries are pairwise distinct. -/
def Config.tableOk (c : Config) : Bool :=
  match c.table with
  | some t => t.distinct
  | none => false

/-- The parameters a model may be built with (R11, R12, R24, R71, R223). -/
def Config.admissible (c : Config) : Bool :=
  c.addrWOk && c.baseOk && c.tableOk && c.codes.distinct

/-- R107: the words that may stand in a bus trace of this hardware. -/
def isTraceWord (u : UopWord) : Bool :=
  u == 0x100 || u == 0x200 || u.extractLsb' 8 4 == 3 || u.extractLsb' 8 4 == 4 || u == 0x500 || u == 0x600

end Sys2Proof
end

