-- ==== Sys2Proof/Decode.lean ====
section
/-! DEFINITION. Decoding command words (R91 to R98) and micro-op words (R100 to R107), and the encoder, each written from
the spec's field layouts. Decoding is total; a word that encodes nothing is rejected by name. -/

namespace Sys2Proof

/-- Why a word is rejected: the three ways a command word is INVALID (R97, R98) and the two ways a 12-bit word is no
micro-op word (R107). -/
inductive Reject where
  /-- RSV_HI, bits 31:16, is not 0. -/
  | reservedHigh
  /-- A reserved bit of the opcode's operand field is set. -/
  | reservedArg
  /-- OP is 0x0 or 0x4 to 0xF. -/
  | unknownOp
  /-- UOP is 0x0 or 0x7 to 0xF. -/
  | unknownUop
  /-- DATA is not 0 in START, STOP, RBYTE_ACK or RBYTE_NACK. -/
  | uopData
  deriving DecidableEq, Repr

/-- R97, clause by clause. -/
def decodeCommand (w : Word) : Except Reject Instr :=
  if w.extractLsb' 16 16 ≠ 0 then .error .reservedHigh
  else if w.extractLsb' 12 4 = 1 then
    if w.extractLsb' 3 9 ≠ 0 then .error .reservedArg
    else .ok (.init (w.extractLsb' 0 2) (w.getLsbD 2))
  else if w.extractLsb' 12 4 = 2 then
    if w.extractLsb' 8 4 ≠ 0 then .error .reservedArg
    else .ok (.transmit (w.extractLsb' 0 7) (w.getLsbD 7))
  else if w.extractLsb' 12 4 = 3 then
    if w.extractLsb' 7 5 ≠ 0 then .error .reservedArg
    else .ok (.receive (w.extractLsb' 0 7))
  else .error .unknownOp

/-- R100 to R107: reading a word of a bus trace. -/
def decodeMicro (u : UopWord) : Except Reject Instr :=
  let data : Byte := u.extractLsb' 0 8
  let op : BitVec 4 := u.extractLsb' 8 4
  if op = 1 then (if data = 0 then .ok .start else .error .uopData)
  else if op = 2 then (if data = 0 then .ok .stop else .error .uopData)
  else if op = 3 then .ok (.waddr data)
  else if op = 4 then .ok (.wbyte data)
  else if op = 5 then (if data = 0 then .ok .rbyteAck else .error .uopData)
  else if op = 6 then (if data = 0 then .ok .rbyteNack else .error .uopData)
  else .error .unknownUop

/-- The command word of R108's assembler for a command; `none` for a micro-operation, which has no command encoding (R182). -/
def encodeCommand : Instr → Option Word
  | .init mode pu => some ((0x0001#20 ++ 0#9 ++ BitVec.ofBool pu ++ mode).cast (by decide))
  | .transmit sla keep => some ((0x0002#20 ++ 0#4 ++ BitVec.ofBool keep ++ sla).cast (by decide))
  | .receive sla => some ((0x0003#20 ++ 0#5 ++ sla).cast (by decide))
  | .start => none
  | .stop => none
  | .waddr _ => none
  | .wbyte _ => none
  | .rbyteAck => none
  | .rbyteNack => none

/-- The micro-op word of R101 to R106; `none` for a command. -/
def encodeMicro : Instr → Option UopWord
  | .init _ _ => none
  | .transmit _ _ => none
  | .receive _ => none
  | .start => some 0x100
  | .stop => some 0x200
  | .waddr b => some ((3#4 ++ b).cast (by decide))
  | .wbyte d => some ((4#4 ++ d).cast (by decide))
  | .rbyteAck => some 0x500
  | .rbyteNack => some 0x600

/-- The width of an instruction's encoding in whole bytes' bits (R90): 32 for a command word, 16 for the 12 bits of a
micro-op word. -/
def encodedBits (i : Instr) : Nat := if i.isCommand then 32 else 16

/-- The word of an instruction, as a number of `encodedBits i` bits. -/
def encode (i : Instr) : Nat :=
  match encodeCommand i with
  | some w => w.toNat
  | none =>
    match encodeMicro i with
    | some u => u.toNat
    | none => 0

/-- Reading a word of either format (R90): more than 16 bits is a command word, at most 16 bits a micro-op word whose
bits above 11 are 0. -/
def decodeWord (nbits w : Nat) : Except Reject Instr :=
  if 16 < nbits then
    if w < 2 ^ 32 then decodeCommand (BitVec.ofNat 32 w) else .error .reservedHigh
  else if w < 2 ^ 12 then decodeMicro (BitVec.ofNat 12 w) else .error .unknownUop

/-- The instruction the decoder reads from a row's word, numbered as spec/opcode_table.json numbers it. -/
def decodeTableWord (nbits w : Nat) : Option Instr :=
  match decodeWord nbits w with
  | .ok i => some i
  | .error _ => none

/-- One row of spec/opcode_table.json for a host command. -/
structure CommandRow where
  mnemonic : String
  fixed    : Word
  mask     : Word
  deriving DecidableEq, Repr

/-- The table's INIT, TRANSMIT and RECEIVE rows (R93 to R95). -/
def commandRows : List CommandRow :=
  [ { mnemonic := "INIT", fixed := 0x00001000, mask := 0xFFFFFFF8 },
    { mnemonic := "TRANSMIT", fixed := 0x00002000, mask := 0xFFFFFF00 },
    { mnemonic := "RECEIVE", fixed := 0x00003000, mask := 0xFFFFFF80 } ]

/-- w is an encoding of the row. -/
def CommandRow.matchesWord (r : CommandRow) (w : Word) : Bool := w &&& r.mask == r.fixed

end Sys2Proof
end

