-- ==== Sys2Proof/Machine/State.lean ====
section
/-! DEFINITION. The machine's state as plain data: the record of R20, the hidden sequencer position of R38, the bus phase
of R39, the buffer memory, the bus trace, and, as inputs, the host program and the bus environment's answers. -/

namespace Sys2Proof.Machine

/-- A command's result (R15). -/
inductive Result where
  | success
  | failure (c : Half)
  deriving DecidableEq, Repr

/-- A primitive's outcome (R15). -/
inductive PrimOutcome where
  | ok
  | okData (d : Byte)
  | fail (c : Half)
  deriving DecidableEq, Repr

/-- The six micro-operations as the sequencer sends them across the bus-side boundary (R100 to R106). -/
inductive MicroOp where
  | start
  | stop
  | waddr (b : Byte)
  | wbyte (d : Byte)
  | rbyteAck
  | rbyteNack
  deriving DecidableEq, Repr

/-- The primitive kinds the status translator tells apart (R162). STOP has none. -/
inductive PrimKind where
  | start
  | waddrW
  | waddrR
  | wbyte
  | rbyteAck
  | rbyteNack
  deriving DecidableEq, Repr

/-- What stands between the sequencer and the bus-side boundary (R121, R123): nothing; a micro-operation whose
`BusWait()` has not returned; or the outcome a primitive hands back, the pseudocode's local `r`. -/
inductive Boundary where
  | free
  | waiting (u : MicroOp)
  | done (r : PrimOutcome)
  deriving DecidableEq, Repr

/-- The command kind of R38. -/
inductive CmdKind where
  | init
  | transmit
  | receive
  deriving DecidableEq, Repr

/-- The step of the pseudocode the sequencer is at (R38; R185, R190, R220), with the local value that step holds. -/
inductive SeqStep where
  /-- INIT's only step (R220). -/
  | configure
  /-- Step 1: START. -/
  | start
  /-- Step 2: WADDR. -/
  | waddr
  /-- TRANSMIT step 3: `MemRead` of byte i. -/
  | load
  /-- TRANSMIT step 3: WBYTE of the byte d just read. -/
  | wbyte (d : Byte)
  /-- RECEIVE steps 3 and 4: RBYTE of byte i. -/
  | rbyte
  /-- RECEIVE steps 3 and 4: `MemWrite` of the received byte d to slot i. -/
  | store (d : Byte)
  /-- The final STOP, after which the command ends with the result. -/
  | stop (res : Result)
  deriving DecidableEq, Repr

/-- The hidden sequencer position (R38): the command kind, its latched arguments, the step and the byte index i. -/
structure SeqPos where
  kind : CmdKind
  sla  : SlaveAddr
  keep : Bool
  /-- BUF as latched at command start; below 2 ^ ADDR_W. -/
  base : Word
  /-- LEN as latched at command start. -/
  len  : Half
  idx  : Half
  pc   : SeqStep
  deriving DecidableEq, Repr

/-- The bus phase (R39). -/
inductive BusPhase where
  | idle
  | started
  | addressAcked
  | writing
  | reading
  | stopped
  | openHeld
  deriving DecidableEq, Repr

/-- One step of the bus-side configuration, in the order of R221 (the record is a DESIGN CHOICE, log 14). -/
inductive ConfigStep where
  /-- Both bus-line pins as outputs with this pull-up state. -/
  | pinsOutput (pullUp : Bool)
  /-- Both pins as bus-driven lines. -/
  | pinsBusDriven
  /-- The prescaler and the bit-rate divisor. -/
  | writeDivisor (prescaler : Nat) (v : Byte)
  deriving DecidableEq, Repr

/-- One action of the host (R8, R108): a register access of some width in bits, an access to a byte of its own buffer
memory, the `wait` of R108, or a reset of the controller (R270, R272). An input, held as data (DESIGN CHOICE, log 6). -/
inductive HostAction where
  | write (addr width : Nat) (value : Word)
  | read (addr width : Nat)
  | bufRead (addr : Nat)
  | bufWrite (addr : Nat) (value : Byte)
  | wait
  | reset
  deriving DecidableEq, Repr

/-- One choice of the bus environment (R8, R275, R276). An input, held as data (DESIGN CHOICE, log 1). -/
inductive EnvEvent where
  /-- `BusWait()` returns; `BusStatus()` is `status`, and `BusData()` is `data` where it is read. -/
  | answer (status data : Byte)
  /-- `BusWait()` has not returned yet: the host has a turn first. -/
  | late
  /-- The sequencer has not performed its next step yet: the host has a turn first. -/
  | hold
  deriving DecidableEq, Repr

/-- The buffer memory (R60): the listed bytes in rising order of address. -/
abbrev Memory := List Host.Cell

/-- The machine. INVENTORY.md, `## State`, gives the rule of each field. -/
structure State where
  /-- The parameters; no step changes them. -/
  cfg        : Config
  buf        : Word
  len        : Half
  resFail    : Bool
  resCode    : Half
  lastRaw    : Byte
  busy       : Bool
  configured : Bool
  busOpen    : Bool
  pullup     : Bool
  mode       : ModeBits
  divValue   : Byte
  divSet     : Bool
  /-- The sequencer position; `none` between commands. -/
  seq        : Option SeqPos
  boundary   : Boundary
  phase      : BusPhase
  mem        : Memory
  /-- The bus trace, oldest word first (R66). -/
  trace      : List UopWord
  /-- The bus-side configuration steps, oldest first (R221). -/
  configLog  : List ConfigStep
  /-- The host's actions still to come, in program order (R73, R108). -/
  program    : List HostAction
  /-- The bus environment's choices still to come. -/
  env        : List EnvEvent
  /-- What the host's latest read returned. -/
  readData   : Word
  deriving DecidableEq, Repr

/-- Why the machine stops with a fault: the model faults of R247 and two accesses to addresses that do not exist. Each is
SAFE: the model stops where the spec gives the action no meaning (log 16). -/
inductive Fault where
  /-- R37, R247: a host write to the window while STAT.BUSY = 1. Raised by `hostWrite` and by a command's start. -/
  | hostWriteWhileBusy
  /-- R70, R247: a host access to a byte of the running command's buffer. Raised by `hostBufRead` and `hostBufWrite`. -/
  | hostBufferRace
  /-- R68, R247: a register access that is not 32 bits wide at an offset that is a multiple of 4. Raised by `windowOffset`. -/
  | unsupportedRegisterAccess
  /-- R22: "No other offset belongs to the window". Raised by `windowOffset` (DESIGN CHOICE, log 11). -/
  | accessOutsideWindow
  /-- R60: a buffer address has ADDR_W bits. Raised by `hostBufRead` and `hostBufWrite` (DESIGN CHOICE, log 11). -/
  | noSuchBufferAddress
  deriving DecidableEq, Repr

/-- Why the machine refuses. -/
inductive Refusal where
  /-- An instruction without a meaning, by its mnemonic. No arm raises it. SAFE. -/
  | notModelled (mnemonic : String)
  /-- R11, R12, R223: the parameters are not admissible ("A model must then refuse the configuration"). Raised by `step`,
  and by INIT where there is no divisor table. SAFE. -/
  | inadmissibleConfiguration
  deriving DecidableEq, Repr

/-- The registers, flags, position and phase at their reset values (R43, R270); everything the controller does not hold
(R20, R40, R60, R66) stays (DESIGN CHOICE, log 15). -/
def State.resetRegisters (s : State) : State :=
  { s with
    buf := 0, len := 0, resFail := false, resCode := 0, lastRaw := 0, busy := false, configured := false,
    busOpen := false, pullup := false, mode := 0, divValue := 0, divSet := false, seq := none, boundary := .free,
    phase := .idle }

/-- The machine right after reset (R43, R270), with the standard parameters, nothing listed in memory, empty traces, and
no input yet (DESIGN CHOICE, logs 2 and 15). -/
def State.reset : State where
  cfg := Config.standard
  buf := 0
  len := 0
  resFail := false
  resCode := 0
  lastRaw := 0
  busy := false
  configured := false
  busOpen := false
  pullup := false
  mode := 0
  divValue := 0
  divSet := false
  seq := none
  boundary := .free
  phase := .idle
  mem := []
  trace := []
  configLog := []
  program := []
  env := []
  readData := 0

end Sys2Proof.Machine
end

