-- ==== Sys2Proof/Machine/Operands.lean ====
section
/-! DEFINITION. Operand assembly: the address byte (R122), the micro-op words (R100 to R106), buffer addresses (R62), and
the micro-operation each sequencer step sends (R185, R190). -/

namespace Sys2Proof.Machine

/-- `addr_byte(sla, dir)` (R122): the slave address in bits 7:1, the direction in bit 0. -/
def addrByte (sla : SlaveAddr) (dir : Bool) : Byte :=
  (sla.setWidth 8 <<< 1) ||| (BitVec.ofBool dir).setWidth 8

/-- The word of a micro-operation (R101 to R106). -/
def MicroOp.word : MicroOp → UopWord
  | .start => 0x100
  | .stop => 0x200
  | .waddr b => 0x300 ||| b.setWidth 12
  | .wbyte d => 0x400 ||| d.setWidth 12
  | .rbyteAck => 0x500
  | .rbyteNack => 0x600

/-- The row of the opcode table a micro-operation is. -/
def MicroOp.toInstr : MicroOp → Instr
  | .start => .start
  | .stop => .stop
  | .waddr b => .waddr b
  | .wbyte d => .wbyte d
  | .rbyteAck => .rbyteAck
  | .rbyteNack => .rbyteNack

/-- `trunc_ADDR_W(a)` (R24, R36, R62). -/
def truncAddr (c : Config) (a : Word) : Word := BitVec.ofNat 32 (a.toNat % 2 ^ c.addrW)

/-- The buffer address of byte i of a transaction (R62): `trunc_ADDR_W(base + i)`. -/
def bufAddr (c : Config) (base : Word) (i : Nat) : Nat := (base.toNat + i) % 2 ^ c.addrW

/-- The address byte i of the running command is at. -/
def SeqPos.addr (c : Config) (p : SeqPos) : Nat := bufAddr c p.base p.idx.toNat

/-- The direction of a command's WADDR (R96): read for RECEIVE, write otherwise. -/
def CmdKind.dir : CmdKind → Bool
  | .init => false
  | .transmit => false
  | .receive => true

/-- `(i < n - 1) ? 1 : 0` of R190, for n at least 1: ACK for every byte but the last. -/
def SeqPos.ack (p : SeqPos) : Bool := decide (p.idx.toNat + 1 < p.len.toNat)

/-- The micro-operation the sequencer's step sends, if it sends one (R185, R190). -/
def SeqPos.uop (p : SeqPos) : Option MicroOp :=
  match p.pc with
  | .configure => none
  | .start => some .start
  | .waddr => some (.waddr (addrByte p.sla p.kind.dir))
  | .load => none
  | .wbyte d => some (.wbyte d)
  | .rbyte => some (if p.ack then .rbyteAck else .rbyteNack)
  | .store _ => none
  | .stop _ => some .stop

/-- A byte address lies in the running command's transaction buffer `[base, base + n)`, which wraps (R62, R70). -/
def SeqPos.ownsByte (c : Config) (p : SeqPos) (a : Nat) : Bool :=
  match p.kind with
  | .init => false
  | .transmit => decide ((a + 2 ^ c.addrW - p.base.toNat % 2 ^ c.addrW) % 2 ^ c.addrW < p.len.toNat)
  | .receive => decide ((a + 2 ^ c.addrW - p.base.toNat % 2 ^ c.addrW) % 2 ^ c.addrW < p.len.toNat)

/-- A sequencer position at which the given micro-operation is the next to be sent (used by `State.withFetchWord`): a
TRANSMIT for START, STOP and WBYTE, the command of the direction bit for WADDR, a RECEIVE of two bytes at its first for
RBYTE_ACK and of one byte for RBYTE_NACK. -/
def positionFor (s : State) : MicroOp → SeqPos
  | .start => { kind := .transmit, sla := 0, keep := false, base := s.buf, len := s.len, idx := 0, pc := .start }
  | .stop => { kind := .transmit, sla := 0, keep := false, base := s.buf, len := 0, idx := 0, pc := .stop .success }
  | .waddr b =>
    { kind := if b.getLsbD 0 then .receive else .transmit, sla := b.extractLsb' 1 7, keep := false, base := s.buf,
      len := s.len, idx := 0, pc := .waddr }
  | .wbyte d => { kind := .transmit, sla := 0, keep := false, base := s.buf, len := 1, idx := 0, pc := .wbyte d }
  | .rbyteAck => { kind := .receive, sla := 0, keep := false, base := s.buf, len := 2, idx := 0, pc := .rbyte }
  | .rbyteNack => { kind := .receive, sla := 0, keep := false, base := s.buf, len := 1, idx := 0, pc := .rbyte }

/-- The micro-operation a row of the opcode table is; `none` for a command. -/
def microOfInstr : Instr → Option MicroOp
  | .init _ _ => none
  | .transmit _ _ => none
  | .receive _ => none
  | .start => some .start
  | .stop => some .stop
  | .waddr b => some (.waddr b)
  | .wbyte d => some (.wbyte d)
  | .rbyteAck => some .rbyteAck
  | .rbyteNack => some .rbyteNack

end Sys2Proof.Machine
end

