-- ==== Sys2Proof/Machine/Flags.lean ====
section
/-! DEFINITION. The status translator (R162), the result and status words the host reads (R22 to R36), and the bus phase's
transitions (R39). -/

namespace Sys2Proof.Machine

/-- The statuses each kind of primitive accepts (R162). -/
def statusOk (c : StatusCodes) (k : PrimKind) (st : Byte) : Bool :=
  match k with
  | .start => st == c.start || st == c.repStart
  | .waddrW => st == c.mtSlaAck
  | .waddrR => st == c.mrSlaAck
  | .wbyte => st == c.mtDataAck
  | .rbyteAck => st == c.mrDataAck
  | .rbyteNack => st == c.mrDataNack

/-- `translate(kind, s)` (R162): OK, or FAIL with the raw status zero-extended (R161). -/
def translateStatus (c : StatusCodes) (k : PrimKind) (st : Byte) : PrimOutcome :=
  if statusOk c k st then .ok else .fail (st.setWidth 16)

/-- The kind of a WADDR is chosen by the direction bit of its address byte (R126). -/
def waddrKind (b : Byte) : PrimKind := if b.getLsbD 0 then .waddrR else .waddrW

/-- The outcome of an RBYTE (R128, R131): the received byte on the expected status; otherwise FAIL, or with
LEGACY_READ_DEFECT the status itself as the byte. -/
def readOutcome (c : Config) (k : PrimKind) (st data : Byte) : PrimOutcome :=
  match translateStatus c.codes k st with
  | .ok => .okData data
  | .okData d => .okData d
  | .fail f => if c.legacyRead then .okData st else .fail f

/-- A primitive succeeded. -/
def PrimOutcome.isOk : PrimOutcome → Bool
  | .ok => true
  | .okData _ => true
  | .fail _ => false

/-- The synthetic failure codes (R241). -/
def errConfig : Half := 0x0100
def errLength : Half := 0x0101
def errNotConfigured : Half := 0x0102
def errBadCommand : Half := 0x0103

/-- RESULT.FAIL and RESULT.CODE of a result (R27). -/
def Result.failBit : Result → Bool
  | .success => false
  | .failure _ => true

def Result.code : Result → Half
  | .success => 0
  | .failure c => c

/-- A 32-bit read of RESULT (R26, R27). -/
def resultWord (s : State) : Word := (0#15 ++ BitVec.ofBool s.resFail ++ s.resCode).cast (by decide)

/-- A 32-bit read of STAT (R28). -/
def statWord (s : State) : Word :=
  (0#18 ++ s.mode ++ BitVec.ofBool s.pullup ++ BitVec.ofBool s.busOpen ++ BitVec.ofBool s.configured ++
    BitVec.ofBool s.busy ++ s.lastRaw).cast (by decide)

/-- A 32-bit read of DIV (R34). -/
def divWord (s : State) : Word := (0#23 ++ BitVec.ofBool s.divSet ++ s.divValue).cast (by decide)

/-- The bus is held in this phase: a START succeeded and no STOP was issued since (R31, R39). -/
def BusPhase.held : BusPhase → Bool
  | .idle => false
  | .started => true
  | .addressAcked => true
  | .writing => true
  | .reading => true
  | .stopped => false
  | .openHeld => true

/-- WADDR succeeded: Started → AddressAcked. From any other phase, which no run reaches, it stays (DESIGN CHOICE,
log 8). -/
def BusPhase.onWaddr : BusPhase → BusPhase
  | .started => .addressAcked
  | p => p

/-- WBYTE succeeded: AddressAcked or Writing → Writing. -/
def BusPhase.onWbyte : BusPhase → BusPhase
  | .addressAcked => .writing
  | p => p

/-- RBYTE succeeded: AddressAcked or Reading → Reading. -/
def BusPhase.onRbyte : BusPhase → BusPhase
  | .addressAcked => .reading
  | p => p

/-- A transfer ended with the bus held: → Open (R31, R39; DEDUCED, log 9). -/
def BusPhase.atEnd : BusPhase → BusPhase
  | .started => .openHeld
  | .addressAcked => .openHeld
  | .writing => .openHeld
  | .reading => .openHeld
  | p => p

end Sys2Proof.Machine
end

