-- ==== Sys2Proof/Machine/Ops.lean ====
section
/-! DEFINITION. The named operations: buffer memory (R60 to R63), the bus-side boundary (R120 to R123), the start and end
of a command (R180, R181), which also carries a failure out (R245: a failure is a value, there is no trap entry and no
return), and the register window's reads (R22, R37). -/

namespace Sys2Proof.Machine

/-! Buffer memory -/

/-- What a byte that nothing has written reads as. DESIGN CHOICE (log 4): the buffer memory is the host's and the spec
gives it no contents. -/
def unlisted : Byte := 0

/-- The byte at an address. -/
def Memory.get : Memory → Nat → Byte
  | [], _ => unlisted
  | (k, v) :: m, a => if a < k then unlisted else if a = k then v else Memory.get m a

/-- Memory with the byte v at address a, in canonical form. -/
def Memory.set : Memory → Nat → Byte → Memory
  | [], a, v => if v = unlisted then [] else [(a, v)]
  | (k, w) :: m, a, v =>
    if a < k then (if v = unlisted then (k, w) :: m else (a, v) :: (k, w) :: m)
    else if a = k then (if v = unlisted then m else (k, v) :: m)
    else (k, w) :: Memory.set m a v

/-- The canonical form: strictly rising addresses, and no entry equal to what an unlisted address reads as. -/
abbrev Memory.wf (m : Memory) : Prop := m.Pairwise (fun x y => x.1 < y.1) ∧ ∀ c ∈ m, c.2 ≠ unlisted

/-- MEM_OK(a, read) (R61), for the sequencer's MemRead only (log 19). -/
def memOkRead (c : Config) (a : Nat) : Bool :=
  c.memHoles.all fun h => !(decide (h.first ≤ a) && decide (a ≤ h.last) && h.noRead)

/-- MEM_OK(a, write) (R63), for the sequencer's MemWrite only (log 19). -/
def memOkWrite (c : Config) (a : Nat) : Bool :=
  c.memHoles.all fun h => !(decide (h.first ≤ a) && decide (a ≤ h.last) && h.noWrite)

/-! The bus-side boundary -/

/-- `BusIssue(u)` (R14, R66): the word is appended to the bus trace. -/
def busIssue (u : MicroOp) (s : State) : State := { s with trace := s.trace ++ [u.word] }

/-- `BusWait()` of micro-operation u, and what follows when it returns (R123). The next choice of the bus environment
answers; with none there, or with the answer late, the controller stays waiting on u. -/
def busWait (u : MicroOp) (complete : Byte → Byte → State → State) (s : State) : State :=
  match s.env with
  | .answer st d :: rest => complete st d { s with env := rest }
  | _ => { s with boundary := .waiting u }

/-- `BusConfigure(pins, pu, v)` (R221): three steps, in this order; the prescaler is 1 (R35). Nothing is appended to the
bus trace. -/
def busConfigure (pu : Bool) (v : Byte) (s : State) : State :=
  { s with configLog := s.configLog ++ [.pinsOutput pu, .pinsBusDriven, .writeDivisor 1 v] }

/-! Start and end of a command -/

/-- RESULT <- encode(res) (R27). -/
def setResult (r : Result) (s : State) : State := { s with resFail := r.failBit, resCode := r.code }

/-- R180: BUSY is set and the position is latched. -/
def startCommand (p : SeqPos) (s : State) : State := { s with busy := true, seq := some p, boundary := .free }

/-- The position a command starts at: BUF and LEN are latched, the byte index is 0 (R38, R180). -/
def latched (kind : CmdKind) (sla : SlaveAddr) (keep : Bool) (pc : SeqStep) (s : State) : SeqPos :=
  { kind := kind, sla := sla, keep := keep, base := s.buf, len := s.len, idx := 0, pc := pc }

/-- `end_command(res)` (R181): RESULT is written, then BUSY is cleared; no position is retained (R38).
The host has no turn between the two (DESIGN CHOICE, log 20). -/
def endCommand (r : Result) (s : State) : State := { setResult r s with busy := false, seq := none }

/-- The end of a command that used the bus: a bus still held is now Open (R39). -/
def endTransfer (r : Result) (s : State) : State := endCommand r { s with phase := s.phase.atEnd }

/-- A word that decodes to INVALID (R98, R180, R182). -/
def badCommand (s : State) : State := endCommand (.failure errBadCommand) { s with busy := true }

/-! The register window -/

/-- The offset of an access to the window, or the fault of an access that is not admitted (R22, R68). Which of
the two faults it is goes by the access's first byte alone: one that starts below BASE and overlaps the window is
accessOutsideWindow, one that starts inside and runs past the end unsupportedRegisterAccess (DESIGN CHOICE, log 11). -/
def windowOffset (c : Config) (addr width : Nat) : Except Fault Nat :=
  if addr < c.base ∨ c.base + 32 ≤ addr then .error .accessOutsideWindow
  else if width ≠ 32 ∨ (addr - c.base) % 4 ≠ 0 then .error .unsupportedRegisterAccess
  else .ok (addr - c.base)

/-- A read of the register at an offset (R22, R23, R36). -/
def readRegister (s : State) (off : Nat) : Word :=
  if off = 0x04 then s.buf
  else if off = 0x08 then s.len.setWidth 32
  else if off = 0x0C then resultWord s
  else if off = 0x10 then statWord s
  else if off = 0x14 then divWord s
  else 0

/-- A write of the register at an offset other than CMD's (R36, R37). -/
def writeRegister (off : Nat) (w : Word) (s : State) : State :=
  if off = 0x04 then { s with buf := truncAddr s.cfg w }
  else if off = 0x08 then { s with len := w.setWidth 16 }
  else s

end Sys2Proof.Machine
end

