-- ==== Sys2Proof/Machine/Configure.lean ====
section
/-! DEFINITION. Bus configuration: INIT (43_configuration.md R220 to R225). -/

namespace Sys2Proof.Machine

/-- The effects of an INIT that succeeds (R220): the bus-side configuration, then the registers. -/
def configure (mode : ModeBits) (pu : Bool) (v : Byte) (s : State) : State :=
  { busConfigure pu v s with
    divValue := v, divSet := true, pullup := pu, mode := mode, configured := true }

/-- INIT (R180, R220, R224). Without a divisor table the configuration is refused (R223). -/
def execInit (mode : ModeBits) (pu : Bool) (s : State) : Host.Outcome State Fault Refusal :=
  if s.busy then .fault .hostWriteWhileBusy
  else if mode = 3 then .next (endCommand (.failure errConfig) (startCommand (latched .init 0 false .configure s) s))
  else
    match s.cfg.table with
    | none => .refused .inadmissibleConfiguration
    | some t =>
      match t.entry mode with
      | none => .next (endCommand (.failure errConfig) (startCommand (latched .init 0 false .configure s) s))
      | some v => .next (endCommand .success (configure mode pu v (startCommand (latched .init 0 false .configure s) s)))

end Sys2Proof.Machine
end

