-- ==== Sys2Proof/Machine/Primitives.lean ====
section
/-! DEFINITION. The six bus primitives (40_bus_primitives.md): for each, what its completion does, the primitive itself,
and the meaning of its row. -/

namespace Sys2Proof.Machine

/-! What happens when `BusWait()` returns: LAST_RAW takes the status (R32, R123), the outcome goes to the sequencer. -/

/-- START (R124): BUS_OPEN is set on success only. The phase is Started from every phase (DEDUCED, log 9). -/
def completeStart (st : Byte) (s : State) : State :=
  if statusOk s.cfg.codes .start st then
    { s with lastRaw := st, boundary := .done .ok, busOpen := true, phase := .started }
  else { s with lastRaw := st, boundary := .done (translateStatus s.cfg.codes .start st) }

/-- WADDR (R126). -/
def completeWaddr (b st : Byte) (s : State) : State :=
  if statusOk s.cfg.codes (waddrKind b) st then
    { s with lastRaw := st, boundary := .done .ok, phase := s.phase.onWaddr }
  else { s with lastRaw := st, boundary := .done (translateStatus s.cfg.codes (waddrKind b) st) }

/-- WBYTE (R127). -/
def completeWbyte (st : Byte) (s : State) : State :=
  if statusOk s.cfg.codes .wbyte st then
    { s with lastRaw := st, boundary := .done .ok, phase := s.phase.onWbyte }
  else { s with lastRaw := st, boundary := .done (translateStatus s.cfg.codes .wbyte st) }

/-- RBYTE of either form (R128, R131). -/
def completeRbyte (k : PrimKind) (st data : Byte) (s : State) : State :=
  if (readOutcome s.cfg k st data).isOk then
    { s with lastRaw := st, boundary := .done (readOutcome s.cfg k st data), phase := s.phase.onRbyte }
  else { s with lastRaw := st, boundary := .done (readOutcome s.cfg k st data) }

/-- The completion of the micro-operation in progress. STOP never waits (R125). -/
def completePhase (u : MicroOp) (st data : Byte) (s : State) : State :=
  match u with
  | .start => completeStart st s
  | .stop => s
  | .waddr b => completeWaddr b st s
  | .wbyte _ => completeWbyte st s
  | .rbyteAck => completeRbyte .rbyteAck st data s
  | .rbyteNack => completeRbyte .rbyteNack st data s

/-! The primitives -/

/-- `prim_start()` (R124). -/
def primStart (s : State) : State := busWait .start (fun st _ => completeStart st) (busIssue .start s)

/-- `prim_stop()` (R125): no wait, no status, BUS_OPEN cleared when it is issued. The phase is Stopped from every
phase (DEDUCED, log 9). -/
def primStop (s : State) : State :=
  { busIssue .stop s with busOpen := false, phase := .stopped, boundary := .done .ok }

/-- `prim_waddr(b)` (R126). -/
def primWaddr (b : Byte) (s : State) : State :=
  busWait (.waddr b) (fun st _ => completeWaddr b st) (busIssue (.waddr b) s)

/-- `prim_wbyte(d)` (R127). -/
def primWbyte (d : Byte) (s : State) : State :=
  busWait (.wbyte d) (fun st _ => completeWbyte st) (busIssue (.wbyte d) s)

/-- `prim_rbyte(1)` (R128, R129). -/
def primRbyteAck (s : State) : State :=
  busWait .rbyteAck (fun st d => completeRbyte .rbyteAck st d) (busIssue .rbyteAck s)

/-- `prim_rbyte(0)` (R128, R130). -/
def primRbyteNack (s : State) : State :=
  busWait .rbyteNack (fun st d => completeRbyte .rbyteNack st d) (busIssue .rbyteNack s)

/-- The primitive of a micro-operation. -/
def performUop (u : MicroOp) (s : State) : State :=
  match u with
  | .start => primStart s
  | .stop => primStop s
  | .waddr b => primWaddr b s
  | .wbyte d => primWbyte d s
  | .rbyteAck => primRbyteAck s
  | .rbyteNack => primRbyteNack s

/-! The meanings of the micro-operation rows. The outcome is left at the boundary for the sequencer (R15, R123). -/

def execStart (s : State) : Host.Outcome State Fault Refusal := .next (primStart s)

def execStop (s : State) : Host.Outcome State Fault Refusal := .next (primStop s)

def execWaddr (b : Byte) (s : State) : Host.Outcome State Fault Refusal := .next (primWaddr b s)

def execWbyte (d : Byte) (s : State) : Host.Outcome State Fault Refusal := .next (primWbyte d s)

def execRbyteAck (s : State) : Host.Outcome State Fault Refusal := .next (primRbyteAck s)

def execRbyteNack (s : State) : Host.Outcome State Fault Refusal := .next (primRbyteNack s)

end Sys2Proof.Machine
end

