-- ==== Sys2Proof/Machine/Sequencer.lean ====
section
/-! DEFINITION. The transaction sequencer (42_sequencer.md): its single moves over the position of R38, and the meanings
of TRANSMIT (R185) and RECEIVE (R190), which run those moves until the command ends or the bus environment or the memory
makes the sequencer wait. -/

namespace Sys2Proof.Machine

/-- The position moves on to step pc. -/
def goto (p : SeqPos) (pc : SeqStep) (s : State) : State := { s with seq := some { p with pc := pc } }

/-- The `while i < n` of R185 and R190: the next data byte, or else the end of the data phases, which is STOP except after
a TRANSMIT that keeps the bus open (R187). -/
def loopHead (p : SeqPos) (s : State) : State :=
  match p.kind with
  | .init => s
  | .transmit =>
    if p.idx < p.len then goto p .load s
    else if p.keep then endTransfer .success s
    else goto p (.stop .success) s
  | .receive => if p.idx < p.len then goto p .rbyte s else goto p (.stop .success) s

/-- `i <- i + 1` (R38). -/
def SeqPos.nextByte (p : SeqPos) : SeqPos := { p with idx := p.idx + 1 }

/-- What the sequencer does with a primitive's outcome (R185, R190): a failure ends the command at once with no STOP
(R186, R193), except that a failed read goes on to STOP (R192). An outcome that ends the command ends it here, in the
move that made the primitive's last effect (DESIGN CHOICE, log 20). -/
def advance (p : SeqPos) (r : PrimOutcome) (s : State) : State :=
  match p.pc, r with
  | .start, .fail c => endTransfer (.failure c) s
  | .start, _ => goto p .waddr s
  | .waddr, .fail c => endTransfer (.failure c) s
  | .waddr, _ => loopHead p s
  | .wbyte _, .fail c => endTransfer (.failure c) s
  | .wbyte _, _ => loopHead p.nextByte s
  | .rbyte, .fail c => goto p (.stop (.failure c)) s
  | .rbyte, .okData d => goto p (.store d) s
  | .rbyte, .ok => s
  | .stop res, _ => endTransfer res s
  | .configure, _ => s
  | .load, _ => s
  | .store _, _ => s

/-- The sequencer takes the outcome a primitive left at the boundary, in the move that completed the primitive: the host has
no turn between the two (DESIGN CHOICE, log 20). -/
def deliver (s : State) : State :=
  match s.seq, s.boundary with
  | some p, .done r => advance p r { s with boundary := .free }
  | _, _ => s

/-- One step of the pseudocode at position p with no phase in progress: `MemRead` of byte i (R61), `MemWrite` of slot i
(R63), or the step's primitive together with what the sequencer does with its outcome. The host has no turn inside a move:
not between STOP, or the last byte's store, and the end of the command (DESIGN CHOICE, log 20). -/
def sequencerStep (p : SeqPos) (s : State) : State :=
  match p.pc with
  | .load => goto p (.wbyte (s.mem.get (p.addr s.cfg))) s
  | .store d => loopHead p.nextByte { s with mem := s.mem.set (p.addr s.cfg) d }
  | _ =>
    match p.uop with
    | some u => deliver (performUop u s)
    | none => s

/-- MEM_OK admits the access of position p's step (R61, R63); a step that makes none needs nothing. -/
def memAdmits (c : Config) (p : SeqPos) : Bool :=
  match p.pc with
  | .load => memOkRead c (p.addr c)
  | .store _ => memOkWrite c (p.addr c)
  | _ => true

/-- The controller can move: the phase in progress is answered, or none is in progress, the environment does not hold
the sequencer back, and the memory admits the step. INIT is never found in progress (log 7). -/
def State.canMove (s : State) : Bool :=
  match s.seq with
  | none => false
  | some p =>
    match s.boundary, s.env with
    | .waiting _, .answer _ _ :: _ => true
    | .waiting _, _ => false
    | .done _, _ => true
    | .free, .hold :: _ => false
    | .free, _ => p.pc != .configure && memAdmits s.cfg p

/-- One move of the controller: the phase in progress completes, or the sequencer performs its next step. -/
def controllerMove (s : State) : State :=
  match s.seq with
  | none => s
  | some p =>
    match s.boundary with
    | .waiting u => deliver (busWait u (completePhase u) s)
    | .done _ => deliver s
    | .free => sequencerStep p s

/-- The controller moves as long as it can, at most `fuel` times. -/
def runController : Nat → State → State
  | 0, s => s
  | fuel + 1, s => if s.canMove then runController fuel (controllerMove s) else s

/-- No command of length n makes more moves than this: START, WADDR, two for each byte, STOP. -/
def commandMoves (n : Half) : Nat := 2 * n.toNat + 3

/-- TRANSMIT (R180, R183, R185). -/
def execTransmit (sla : SlaveAddr) (keep : Bool) (s : State) : Host.Outcome State Fault Refusal :=
  if s.busy then .fault .hostWriteWhileBusy
  else if s.configured then
    .next (runController (commandMoves s.len) (startCommand (latched .transmit sla keep .start s) s))
  else .next (endCommand (.failure errNotConfigured) (startCommand (latched .transmit sla keep .start s) s))

/-- RECEIVE (R180, R183, R190, R191). -/
def execReceive (sla : SlaveAddr) (s : State) : Host.Outcome State Fault Refusal :=
  if s.busy then .fault .hostWriteWhileBusy
  else if s.configured then
    if s.len = 0 then .next (endCommand (.failure errLength) (startCommand (latched .receive sla false .start s) s))
    else .next (runController (commandMoves s.len) (startCommand (latched .receive sla false .start s) s))
  else .next (endCommand (.failure errNotConfigured) (startCommand (latched .receive sla false .start s) s))

end Sys2Proof.Machine
end

