-- ==== Sys2Proof/Machine/Dispatch.lean ====
section
/-! DEFINITION. One arm per row of the opcode table: the host commands (R182), then the micro-operations (R120 to R130). -/

namespace Sys2Proof.Machine

def exec (i : Instr) (s : State) : Host.Outcome State Fault Refusal :=
  match i with
  | .init mode pu => Sys2Proof.Machine.execInit mode pu s
  | .transmit sla keep => Sys2Proof.Machine.execTransmit sla keep s
  | .receive sla => Sys2Proof.Machine.execReceive sla s
  | .start => Sys2Proof.Machine.execStart s
  | .stop => Sys2Proof.Machine.execStop s
  | .waddr b => Sys2Proof.Machine.execWaddr b s
  | .wbyte d => Sys2Proof.Machine.execWbyte d s
  | .rbyteAck => Sys2Proof.Machine.execRbyteAck s
  | .rbyteNack => Sys2Proof.Machine.execRbyteNack s

end Sys2Proof.Machine
end

