-- ==== Sys2Proof/Machine/Bus.lean ====
section
/-! DEFINITION. The host's side: what each action of the host does (R22, R23, R37, R68, R70, R108, R270, R272), its
pseudo-instructions (R109), and whose turn it is. -/

namespace Sys2Proof.Machine

/-- R180, R182: a write of w to CMD starts the command w encodes; a word that encodes none ends at once (R98). -/
def writeCommand (w : Word) (s : State) : Host.Outcome State Fault Refusal :=
  match decodeCommand w with
  | .ok i => exec i s
  | .error _ => .next (badCommand s)

/-- A host write to the window (R37, R68). The shape of the access is judged first (log 10). -/
def hostWrite (addr width : Nat) (w : Word) (s : State) : Host.Outcome State Fault Refusal :=
  match windowOffset s.cfg addr width with
  | .error f => .fault f
  | .ok off =>
    if s.busy then .fault .hostWriteWhileBusy
    else if off = 0 then writeCommand w s
    else .next (writeRegister off w s)

/-- A host read of the window (R37, R68): allowed while BUSY = 1 (D26), no side effect on the controller. -/
def hostRead (addr width : Nat) (s : State) : Host.Outcome State Fault Refusal :=
  match windowOffset s.cfg addr width with
  | .error f => .fault f
  | .ok off => .next { s with readData := readRegister s off }

/-- A host access to buffer address a races with the running command (R70). -/
def bufferRace (a : Nat) (s : State) : Bool :=
  s.busy &&
    match s.seq with
    | some p => p.ownsByte s.cfg a
    | none => false

/-- A host read of a byte of the buffer memory (R60, R70). MEM_OK does not govern the host's own accesses (DESIGN CHOICE,
log 19). -/
def hostBufRead (a : Nat) (s : State) : Host.Outcome State Fault Refusal :=
  if 2 ^ s.cfg.addrW ≤ a then .fault .noSuchBufferAddress
  else if bufferRace a s then .fault .hostBufferRace
  else .next { s with readData := (s.mem.get a).setWidth 32 }

/-- A host write of a byte of the buffer memory (R60, R70). MEM_OK does not govern the host's own accesses (DESIGN CHOICE,
log 19). -/
def hostBufWrite (a : Nat) (v : Byte) (s : State) : Host.Outcome State Fault Refusal :=
  if 2 ^ s.cfg.addrW ≤ a then .fault .noSuchBufferAddress
  else if bufferRace a s then .fault .hostBufferRace
  else .next { s with mem := s.mem.set a v }

/-- One action of the host. `wait` reads STAT, and is repeated while BUSY = 1 (R108). A reset may come at any time (R272). -/
def hostAct (a : HostAction) (s : State) : Host.Outcome State Fault Refusal :=
  match a with
  | .write addr width w => hostWrite addr width w s
  | .read addr width => hostRead addr width s
  | .bufRead addr => hostBufRead addr s
  | .bufWrite addr v => hostBufWrite addr v s
  | .wait =>
    if s.busy then .next { s with readData := statWord s, program := .wait :: s.program }
    else .next { s with readData := statWord s }
  | .reset => .next s.resetRegisters

/-- The host's turn: its next action, if it has one. -/
def hostTurn (s : State) : Host.Outcome State Fault Refusal :=
  match s.program with
  | [] => .next s
  | a :: rest => hostAct a { s with program := rest }

/-- The environment's pause before a host turn is over. Pauses count only while a command is in progress. -/
def passPause (s : State) : State :=
  match s.seq, s.env with
  | some _, .late :: rest => { s with env := rest }
  | some _, .hold :: rest => { s with env := rest }
  | _, _ => s

/-- One turn: the controller's while it can move, and otherwise the host's (R8, R73; DESIGN CHOICE, log 6). -/
def turn (s : State) : Host.Outcome State Fault Refusal :=
  if s.canMove then .next (controllerMove s) else hostTurn (passPause s)

/-- The state in which the micro-operation u is the sequencer's next step. -/
def atMicroOp (u : MicroOp) (s : State) : State :=
  { s with
    busy := true, seq := some (positionFor s u), boundary := .free,
    env := s.env.dropWhile (fun e => e == .hold) }

/-- The state in which the write of command word w to CMD is the host's next action, with no command in progress. -/
def atCommand (w : Word) (s : State) : State :=
  { s with
    busy := false, seq := none, boundary := .free, program := .write s.cfg.base 32 w :: s.program }

/-! The host's pseudo-instructions (R109); `wait` is one action. -/

/-- The actions `wr CMD, w ; wait ; rd RESULT`. -/
def issueCommand (c : Config) (w : Word) : List HostAction :=
  [.write c.base 32 w, .wait, .read (c.base + 0x0C) 32]

/-- `init MODE, PU`. -/
def initProgram (c : Config) (mode : ModeBits) (pu : Bool) : List HostAction :=
  match encodeCommand (.init mode pu) with
  | some w => issueCommand c w
  | none => []

/-- `transmit SLA, B, N, K`. -/
def transmitProgram (c : Config) (sla : SlaveAddr) (b n : Word) (keep : Bool) : List HostAction :=
  match encodeCommand (.transmit sla keep) with
  | some w => .write (c.base + 0x04) 32 b :: .write (c.base + 0x08) 32 n :: issueCommand c w
  | none => []

/-- `receive SLA, B, N`. -/
def receiveProgram (c : Config) (sla : SlaveAddr) (b n : Word) : List HostAction :=
  match encodeCommand (.receive sla) with
  | some w => .write (c.base + 0x04) 32 b :: .write (c.base + 0x08) 32 n :: issueCommand c w
  | none => []

end Sys2Proof.Machine
end

