-- ==== Sys2Proof/Machine/Step.lean ====
section
/-! DEFINITION. The step: a machine built with inadmissible parameters is refused (R11, R12, R223); otherwise one turn. -/

namespace Sys2Proof.Machine

/-- One step of the machine. -/
def step (s : State) : Host.Outcome State Fault Refusal :=
  if s.cfg.admissible then turn s else .refused .inadmissibleConfiguration

/-- The state in which the very next step runs the row's word: a command word is the host's next write to CMD, and a
micro-op word is the sequencer's next step (log 5). A word that is no micro-op word changes nothing. -/
def State.withFetchWord (s : State) (nbits w : Nat) : State :=
  if 16 < nbits then atCommand (BitVec.ofNat 32 w) s
  else
    match decodeMicro (BitVec.ofNat 12 w) with
    | .ok i =>
      match microOfInstr i with
      | some u => atMicroOp u s
      | none => s
    | .error _ => s

end Sys2Proof.Machine
end

