-- ==== Sys2Proof/Safety.lean ====
section
/-! DEFINITION. The terms claims use: an idle controller, the invariant of every run, and the traces a command may send. -/

namespace Sys2Proof.Machine

/-- No command is in progress (R38, R270). -/
structure State.Idle (s : State) : Prop where
  notBusy : s.busy = false
  noPosition : s.seq = none
  noPhase : s.boundary = .free

/-- The phases found between commands (R39: "Outside a command, STAT.BUS_OPEN = 1 corresponds to Open and STAT.BUS_OPEN = 0
to Idle or Stopped"). -/
def BusPhase.resting : BusPhase → Bool
  | .idle => true
  | .started => false
  | .addressAcked => false
  | .writing => false
  | .reading => false
  | .stopped => true
  | .openHeld => true

/-- The code a failed result may carry (R241): a raw status, or one of the four synthetic codes. -/
def codeProduced (c : Half) : Prop := c.toNat < 0x104

/-- The position of a running command is one the pseudocode of R185 or R190 reaches, and the bus phase is the one of its
step (R38, R39). -/
def SeqPos.inPhase (p : SeqPos) (ph : BusPhase) : Prop :=
  match p.pc with
  | .configure => False
  | .start => p.idx = 0 ∧ ph.resting = true
  | .waddr => p.idx = 0 ∧ ph = .started
  | .load => p.kind = .transmit ∧ p.idx < p.len ∧ ph = (if p.idx = 0 then .addressAcked else .writing)
  | .wbyte _ => p.kind = .transmit ∧ p.idx < p.len ∧ ph = (if p.idx = 0 then .addressAcked else .writing)
  | .rbyte => p.kind = .receive ∧ p.idx < p.len ∧ ph = (if p.idx = 0 then .addressAcked else .reading)
  | .store _ => p.kind = .receive ∧ p.idx < p.len ∧ ph = .reading
  | .stop .success =>
    p.idx = p.len ∧ ((p.kind = .transmit ∧ p.keep = false ∧ ph = (if p.idx = 0 then .addressAcked else .writing)) ∨
      (p.kind = .receive ∧ ph = .reading))
  | .stop (.failure c) =>
    p.kind = .receive ∧ p.idx < p.len ∧ ph = (if p.idx = 0 then .addressAcked else .reading) ∧ codeProduced c

/-- Where the machine is between its steps: idle in a resting phase, or inside a TRANSMIT or RECEIVE of a configured
controller, with at most the position's own micro-operation waiting at the boundary (R121). -/
def State.positionOk (s : State) : Prop :=
  match s.seq with
  | none => s.boundary = .free ∧ s.phase.resting = true
  | some p =>
    s.configured = true ∧ p.kind ≠ .init ∧ p.base.toNat < 2 ^ s.cfg.addrW ∧ (p.kind = .receive → p.len ≠ 0) ∧
      p.inPhase s.phase ∧
      (s.boundary = .free ∨ ∃ u, s.boundary = .waiting u ∧ p.uop = some u ∧ u ≠ .stop)

/-- The invariant every step keeps. -/
structure State.Inv (s : State) : Prop where
  /-- R11, R12: the parameters are admissible. -/
  admissible : s.cfg.admissible = true
  /-- The buffer memory keeps its canonical form, inside the ADDR_W-bit space (R60). -/
  memWf : s.mem.wf
  memRange : ∀ c ∈ s.mem, c.1 < 2 ^ s.cfg.addrW
  /-- R36: the reserved field of BUF reads 0. -/
  bufReserved : s.buf.toNat < 2 ^ s.cfg.addrW
  /-- R33: the value 3 never appears in MODE. -/
  modeLegal : s.mode ≠ 3
  /-- R27: Success is CODE 0. -/
  successCode : s.resFail = false → s.resCode = 0
  /-- R241: the codes 0x0104 to 0xFFFF are never produced. -/
  failureCode : codeProduced s.resCode
  /-- R220, R270: CONFIGURED and DIV.SET are set together and cleared together. -/
  setTogether : s.divSet = s.configured
  /-- R33, R34, R220: once configured, DIV.VALUE is the table's entry for MODE. -/
  divisor : s.configured = true → ∃ t, s.cfg.table = some t ∧ t.entry s.mode = some s.divValue
  /-- R107: only micro-op words stand in the trace. -/
  traceLegal : ∀ u ∈ s.trace, isTraceWord u = true
  /-- R29, R38: BUSY is 1 exactly while a command is in progress. -/
  busyPosition : s.busy = s.seq.isSome
  /-- R31, R39: BUS_OPEN is 1 exactly in the phases in which the bus is held. -/
  openPhase : s.busOpen = s.phase.held
  /-- R38, R39, R121. -/
  position : s.positionOk

/-- The WBYTE words of the first n bytes of a buffer (R188). -/
def writeWords (c : Config) (base : Word) (m : Memory) (n : Nat) : List UopWord :=
  (List.range n).map fun i => 0x400 ||| (m.get (bufAddr c base i)).setWidth 12

/-- The whole trace of a successful TRANSMIT (R187, R188). -/
def transmitTrace (c : Config) (base : Word) (m : Memory) (n : Nat) (sla : SlaveAddr) (keep : Bool) : List UopWord :=
  [0x100, 0x300 ||| (addrByte sla false).setWidth 12] ++ writeWords c base m n ++ (if keep then [] else [0x200])

/-- The RBYTE word of read i of n (R190, R194): ACK for every byte but the last. -/
def readWord (n i : Nat) : UopWord := if i + 1 < n then 0x500 else 0x600

/-- The trace of a RECEIVE whose first k reads of n were issued, up to its STOP (R194). -/
def receiveTrace (n : Nat) (sla : SlaveAddr) (k : Nat) : List UopWord :=
  [0x100, 0x300 ||| (addrByte sla true).setWidth 12] ++ (List.range k).map (readWord n) ++ [0x200]

/-- An environment that answers at once, with these statuses and data bytes in order. -/
def answers (l : List (Byte × Byte)) : List EnvEvent := l.map fun a => .answer a.1 a.2

/-- Every choice the environment makes is an answer: it completes each phase at once (R276 item 1). -/
def allAnswers (e : List EnvEvent) : Bool :=
  e.all fun
    | .answer _ _ => true
    | .late => false
    | .hold => false

/-- A run of a host program has ended (R278): the host has performed its last access and BUSY is 0. -/
def State.runEnded (s : State) : Bool := s.program.isEmpty && !s.busy

/-- An outcome is a next state. -/
def isNext : Host.Outcome State Fault Refusal → Bool
  | .next _ => true
  | .fault _ => false
  | .refused _ => false

end Sys2Proof.Machine
end

