-- ==== Sys2Proof/Certificates/Slice0/Obligations.lean ====
section
/-! DEFINITION. The statements for the provers, each from the numbered rules its docstring names. -/

open Sys2Proof Sys2Proof.Machine

/-! Encoding -/

/-- R93 to R95, R101 to R106: decoding the encoding of an instruction gives it back, with every operand at every value. -/
def Obligations.DecodeOfEncode : Prop :=
  ∀ i : Instr, decodeTableWord (encodedBits i) (encode i) = some i

/-- R97, R107: each word has one meaning: the instruction a word decodes to encodes to that word. -/
def Obligations.EncodeOfDecode : Prop :=
  (∀ (w : Word) (i : Instr), decodeCommand w = .ok i → encodeCommand i = some w) ∧
  (∀ (u : UopWord) (i : Instr), decodeMicro u = .ok i → encodeMicro i = some u)

/-- R97, R98: a command word is INVALID exactly when RSV_HI is not 0, its OP is not 1, 2 or 3, or the reserved bits of its
opcode's operand field are not all 0. -/
def Obligations.InvalidCommandWords : Prop :=
  ∀ w : Word, (∀ i, decodeCommand w ≠ .ok i) ↔
    (w.extractLsb' 16 16 ≠ 0 ∨
      (w.extractLsb' 12 4 ≠ 1 ∧ w.extractLsb' 12 4 ≠ 2 ∧ w.extractLsb' 12 4 ≠ 3) ∨
      (w.extractLsb' 12 4 = 1 ∧ w.extractLsb' 3 9 ≠ 0) ∨
      (w.extractLsb' 12 4 = 2 ∧ w.extractLsb' 8 4 ≠ 0) ∨
      (w.extractLsb' 12 4 = 3 ∧ w.extractLsb' 7 5 ≠ 0))

/-- R93 to R95 and the opcode table: a word is INIT, TRANSMIT or RECEIVE exactly when it matches that row's pattern under
its mask, and no word matches two rows. -/
def Obligations.DecodeFollowsTable : Prop :=
  (∀ w : Word, (∃ mode pu, decodeCommand w = .ok (.init mode pu)) ↔ w &&& 0xFFFFFFF8#32 = 0x00001000#32) ∧
  (∀ w : Word, (∃ sla keep, decodeCommand w = .ok (.transmit sla keep)) ↔ w &&& 0xFFFFFF00#32 = 0x00002000#32) ∧
  (∀ w : Word, (∃ sla, decodeCommand w = .ok (.receive sla)) ↔ w &&& 0xFFFFFF80#32 = 0x00003000#32) ∧
  (∀ w : Word, commandRows.Pairwise fun a b => ¬(a.matchesWord w = true ∧ b.matchesWord w = true))

/-- R93 to R95, R101 to R106 and the vectors of 95_test_vectors.md: some words and the instructions they encode. -/
def Obligations.DecodesTheVectorWords : Prop :=
  decodeCommand 0x00001004 = .ok (.init 0 true) ∧ decodeCommand 0x00001003 = .ok (.init 3 false) ∧
  decodeCommand 0x000020E8 = .ok (.transmit 0x68 true) ∧ decodeCommand 0x00003068 = .ok (.receive 0x68) ∧
  decodeMicro 0x100 = .ok .start ∧ decodeMicro 0x200 = .ok .stop ∧ decodeMicro 0x3D1 = .ok (.waddr 0xD1) ∧
  decodeMicro 0x46B = .ok (.wbyte 0x6B) ∧ decodeMicro 0x500 = .ok .rbyteAck ∧ decodeMicro 0x600 = .ok .rbyteNack

/-- R100 to R107: the word the sequencer sends for a micro-operation is the encoding of its row, and is a word that may
stand in a bus trace; no other word is. -/
def Obligations.TraceWordsAreEncodings : Prop :=
  (∀ u : MicroOp, encodeMicro u.toInstr = some u.word ∧ isTraceWord u.word = true) ∧
  (∀ w : UopWord, isTraceWord w = true → ∃ u : MicroOp, u.word = w)

/-- R122: bits 7:1 of the address byte are the slave address and bit 0 is the direction. -/
def Obligations.AddressByteLayout : Prop :=
  ∀ (sla : SlaveAddr) (dir : Bool),
    (addrByte sla dir).extractLsb' 1 7 = sla ∧ (addrByte sla dir).getLsbD 0 = dir

/-! Reset -/

/-- R43, R270: reset leaves the values of R43 and no command in progress, in the reset state and after a reset of any
state. A reset does not touch the buffer memory (R270); that it keeps the bus trace and the parameters is the model's choice
(DESIGN CHOICE, log 15). -/
def Obligations.ResetValues : Prop :=
  (∀ s : State, ∀ r ∈ [State.reset, s.resetRegisters],
    r.buf = 0 ∧ r.len = 0 ∧ r.resFail = false ∧ r.resCode = 0 ∧ r.lastRaw = 0 ∧ r.busy = false ∧
    r.configured = false ∧ r.busOpen = false ∧ r.pullup = false ∧ r.mode = 0 ∧ r.divValue = 0 ∧ r.divSet = false ∧
    r.seq = none ∧ r.phase = .idle) ∧
  (∀ s : State, s.resetRegisters.mem = s.mem ∧ s.resetRegisters.trace = s.trace ∧ s.resetRegisters.cfg = s.cfg)

/-- R43, R270, R272: a reset, on an idle controller or while a command runs, when the host's turn comes (whose turn it is:
log 6): every register and flag takes its reset value, a command in progress is abandoned, no micro-operation is issued, and
the bytes already written stay. That the trace, the configuration record, what the host last read, the parameters and the
environment's remaining choices are kept is the model's choice (log 15). -/
def Obligations.ResetAbandonsCommand : Prop :=
  ∀ (s : State) (rest : List HostAction), s.cfg.admissible = true → s.canMove = false → s.program = .reset :: rest →
    ∃ t, step s = .next t ∧ t.Idle ∧ t.buf = 0 ∧ t.len = 0 ∧ t.resFail = false ∧ t.resCode = 0 ∧ t.lastRaw = 0 ∧
      t.configured = false ∧ t.busOpen = false ∧ t.pullup = false ∧ t.mode = 0 ∧ t.divValue = 0 ∧ t.divSet = false ∧
      t.phase = .idle ∧ t.mem = s.mem ∧ t.trace = s.trace ∧ t.configLog = s.configLog ∧ t.readData = s.readData ∧
      t.cfg = s.cfg ∧ t.env = (passPause s).env ∧ t.program = rest

/-- The reset state meets the invariant. That its parameters are admissible rests on BASE 0 and F_CLK 16 MHz (DESIGN CHOICE,
log 2), and that its memory lists nothing and its trace is empty on log 15 (DESIGN CHOICE). -/
def Obligations.ResetMeetsInvariant : Prop := State.reset.Inv

/-- Every step keeps the invariant: canonical memory inside the buffer space, the reserved field of BUF, the legal MODE,
CONFIGURED with its divisor, a legal trace, BUSY exactly while a command runs, BUS_OPEN and the bus phase in step, and a
sequencer position that the pseudocode of R185 and R190 reaches. The canonical form is the model's own (log 4), and the phase
is read as log 9 says. That no step ends with an outcome still to be taken, or after the STOP of a command with BUSY still 1,
is the model's choice (DESIGN CHOICE, log 20), and that none ends inside an INIT is log 7 (DEDUCED). -/
def Obligations.StepKeepsInvariant : Prop :=
  ∀ s t : State, s.Inv → step s = .next t → t.Inv

/-! INIT -/

/-- R220, R221, R225: INIT with a recognized mode on an idle controller, whatever was configured before and whether or not
the bus is held. Everything not named is unchanged. The list `configLog` that records R221's three steps in their order is the
model's choice (DESIGN CHOICE, log 14). -/
def Obligations.InitConfigures : Prop :=
  ∀ (s : State) (mode : ModeBits) (pu : Bool) (tb : DivTable) (v : Byte), s.Idle → mode ≠ 3 →
    s.cfg.table = some tb → tb.entry mode = some v →
    exec (.init mode pu) s = .next { s with
      divValue := v, divSet := true, pullup := pu, mode := mode, configured := true, resFail := false, resCode := 0,
      configLog := s.configLog ++ [.pinsOutput pu, .pinsBusDriven, .writeDivisor 1 v] }

/-- R11, R220, R222: under admissible parameters the table has an entry for each recognized mode, and the three differ; so
INIT with a recognized mode always configures. The modes 0, 1 and 2 are 100, 250 and 400 kHz; in the default table each one's
entry is the default divisor of its frequency, and in a table that is passed they are its three entries in order. -/
def Obligations.AdmissibleTableCoversModes : Prop :=
  (∀ c : Config, c.admissible = true → ∃ tb, c.table = some tb ∧
    (∀ mode : ModeBits, mode ≠ 3 → (tb.entry mode).isSome = true) ∧
    (∀ m m' : ModeBits, m ≠ 3 → m' ≠ 3 → tb.entry m = tb.entry m' → m = m')) ∧
  (targetFreq 0 = some 100000 ∧ targetFreq 1 = some 250000 ∧ targetFreq 2 = some 400000 ∧ targetFreq 3 = none) ∧
  (∀ (c : Config) (tb : DivTable) (m : ModeBits) (f : Nat), c.divTable = none → c.table = some tb →
    targetFreq m = some f → tb.entry m = defaultDivisor c.fClk f) ∧
  (∀ (c : Config) (tb : DivTable), c.divTable = some tb → c.table = some tb) ∧
  (∀ tb : DivTable, tb.entry 0 = some tb.d100 ∧ tb.entry 1 = some tb.d250 ∧ tb.entry 2 = some tb.d400 ∧ tb.entry 3 = none)

/-- R222, R223: the default divisor is the integer nearest to `F_CLK / (2 f) - 8`, halves rounded up, and exists exactly
when the formula's value is from 0 to 255 (judged on the exact value: log 13); the comparisons are cleared of the division. -/
def Obligations.DefaultDivisorRounds : Prop :=
  ∀ fClk f : Nat, 0 < f →
    ((defaultDivisor fClk f).isSome = true ↔ 16 * f ≤ fClk ∧ fClk ≤ 526 * f) ∧
    (∀ v : Byte, defaultDivisor fClk f = some v →
      2 * f * v.toNat + 16 * f ≤ fClk + f ∧ fClk + f < 2 * f * (v.toNat + 1) + 16 * f)

/-- R224: INIT with mode 3 changes nothing but RESULT, which becomes Failure(ERR_CONFIG). -/
def Obligations.InitUnrecognizedModeFails : Prop :=
  ∀ (s : State) (pu : Bool), s.Idle →
    exec (.init 3 pu) s = .next { s with resFail := true, resCode := 0x0100 }

/-! Commands the controller turns away -/

/-- R98: a write to CMD of a word that is no command ends at once (log 7) with Failure(ERR_BAD_COMMAND) and changes no
other state; the step consumes the host's action. -/
def Obligations.InvalidWordFails : Prop :=
  ∀ (s : State) (w : Word) (rest : List HostAction), s.Idle → s.cfg.admissible = true →
    s.program = .write s.cfg.base 32 w :: rest → (∀ i, decodeCommand w ≠ .ok i) →
    step s = .next { s with program := rest, resFail := true, resCode := 0x0103 }

/-- R183: TRANSMIT and RECEIVE before INIT change nothing but RESULT, whatever LEN is (R244). -/
def Obligations.TransferBeforeInitFails : Prop :=
  ∀ (s : State) (sla : SlaveAddr) (keep : Bool), s.Idle → s.configured = false →
    exec (.transmit sla keep) s = .next { s with resFail := true, resCode := 0x0102 } ∧
    exec (.receive sla) s = .next { s with resFail := true, resCode := 0x0102 }

/-- R191: a RECEIVE with LEN = 0 changes nothing but RESULT. -/
def Obligations.ReceiveLengthZeroFails : Prop :=
  ∀ (s : State) (sla : SlaveAddr), s.Idle → s.configured = true → s.len = 0 →
    exec (.receive sla) s = .next { s with resFail := true, resCode := 0x0101 }

/-- R37, R180: while BUSY = 1 no command starts. -/
def Obligations.CommandWhileBusyFaults : Prop :=
  ∀ (s : State) (i : Instr), s.busy = true → i.isCommand = true → exec i s = .fault .hostWriteWhileBusy

/-! The status translator -/

/-- R161 to R163: the translator answers OK exactly on the expected codes of the kind, and otherwise FAIL with the raw
status zero-extended. -/
def Obligations.TranslatorOutcome : Prop :=
  ∀ (c : StatusCodes) (k : PrimKind) (st : Byte),
    (translateStatus c k st = .ok ↔
      match k with
      | .start => st = c.start ∨ st = c.repStart
      | .waddrW => st = c.mtSlaAck
      | .waddrR => st = c.mrSlaAck
      | .wbyte => st = c.mtDataAck
      | .rbyteAck => st = c.mrDataAck
      | .rbyteNack => st = c.mrDataNack) ∧
    (translateStatus c k st ≠ .ok → translateStatus c k st = .fail (st.setWidth 16))

/-- R160, R162, R165: with the default STATUS_CODES, the statuses each kind of primitive accepts, among all 256. The numbers
are PRESUMED (log 12): R160 gives them "from general knowledge, not in source". -/
def Obligations.DefaultCodesOutcomeTable : Prop :=
  ∀ st : Byte,
    (translateStatus .avr .start st = .ok ↔ st = 0x08 ∨ st = 0x10) ∧ (translateStatus .avr .waddrW st = .ok ↔ st = 0x18) ∧
    (translateStatus .avr .waddrR st = .ok ↔ st = 0x40) ∧ (translateStatus .avr .wbyte st = .ok ↔ st = 0x28) ∧
    (translateStatus .avr .rbyteAck st = .ok ↔ st = 0x50) ∧ (translateStatus .avr .rbyteNack st = .ok ↔ st = 0x58) ∧
    (∀ k, translateStatus .avr k st ≠ .ok → translateStatus .avr k st = .fail (st.setWidth 16))

/-- R12, R126, R129, R130: under admissible parameters no status is accepted for both directions of WADDR, nor for both
forms of RBYTE. -/
def Obligations.ExpectedCodesDiffer : Prop :=
  ∀ (c : Config) (st : Byte), c.admissible = true →
    ¬(statusOk c.codes .waddrW st = true ∧ statusOk c.codes .waddrR st = true) ∧
    ¬(statusOk c.codes .rbyteAck st = true ∧ statusOk c.codes .rbyteNack st = true)

/-- R161, R241: a raw status never collides with a synthetic code. -/
def Obligations.RawCodesAreNotSynthetic : Prop :=
  ∀ st : Byte, ∀ c ∈ [errConfig, errLength, errNotConfigured, errBadCommand], st.setWidth 16 ≠ c

/-! The micro-operations: the whole next state, when the bus environment answers (its answers are data of the state, log 1).
The bus phase is R39's where a run reaches it; elsewhere it is the model's choice (log 8, log 9). -/

/-- R124: START answered. BUS_OPEN is set on success only, and a failure leaves everything but the trace and LAST_RAW. The
phase Started from any phase is the model's reading (log 9). -/
def Obligations.StartPrimitive : Prop :=
  ∀ (s : State) (st d : Byte) (rest : List EnvEvent), s.env = .answer st d :: rest →
    ((st = s.cfg.codes.start ∨ st = s.cfg.codes.repStart) →
      exec .start s = .next { s with
        env := rest, trace := s.trace ++ [0x100], lastRaw := st, busOpen := true, phase := .started,
        boundary := .done .ok }) ∧
    (st ≠ s.cfg.codes.start → st ≠ s.cfg.codes.repStart →
      exec .start s = .next { s with
        env := rest, trace := s.trace ++ [0x100], lastRaw := st, boundary := .done (.fail (st.setWidth 16)) })

/-- R125: STOP neither waits nor reads a status, and clears BUS_OPEN. The phase Stopped from any phase is the model's reading
(log 9). -/
def Obligations.StopPrimitive : Prop :=
  ∀ s : State, exec .stop s = .next { s with
    trace := s.trace ++ [0x200], busOpen := false, phase := .stopped, boundary := .done .ok }

/-- R126: WADDR answered. The write-ACK is the success of an address byte whose bit 0 is 0, the read-ACK of one whose bit 0
is 1; any other status, the other direction's ACK included, is the failure. `onWaddr` in phases no run reaches: log 8. -/
def Obligations.WaddrPrimitive : Prop :=
  ∀ (s : State) (b st d : Byte) (rest : List EnvEvent), s.env = .answer st d :: rest →
    (st = (if b.getLsbD 0 then s.cfg.codes.mrSlaAck else s.cfg.codes.mtSlaAck) →
      exec (.waddr b) s = .next { s with
        env := rest, trace := s.trace ++ [0x300 ||| b.setWidth 12], lastRaw := st, phase := s.phase.onWaddr,
        boundary := .done .ok }) ∧
    (st ≠ (if b.getLsbD 0 then s.cfg.codes.mrSlaAck else s.cfg.codes.mtSlaAck) →
      exec (.waddr b) s = .next { s with
        env := rest, trace := s.trace ++ [0x300 ||| b.setWidth 12], lastRaw := st,
        boundary := .done (.fail (st.setWidth 16)) })

/-- R127: WBYTE answered. `onWbyte` in phases no run reaches: log 8. -/
def Obligations.WbytePrimitive : Prop :=
  ∀ (s : State) (b st d : Byte) (rest : List EnvEvent), s.env = .answer st d :: rest →
    (st = s.cfg.codes.mtDataAck →
      exec (.wbyte b) s = .next { s with
        env := rest, trace := s.trace ++ [0x400 ||| b.setWidth 12], lastRaw := st, phase := s.phase.onWbyte,
        boundary := .done .ok }) ∧
    (st ≠ s.cfg.codes.mtDataAck →
      exec (.wbyte b) s = .next { s with
        env := rest, trace := s.trace ++ [0x400 ||| b.setWidth 12], lastRaw := st,
        boundary := .done (.fail (st.setWidth 16)) })

/-- R128, R129, R131: RBYTE_ACK answered, for either value of LEGACY_READ_DEFECT. `onRbyte` in phases no run reaches: log 8. -/
def Obligations.RbyteAckPrimitive : Prop :=
  ∀ (s : State) (st d : Byte) (rest : List EnvEvent), s.env = .answer st d :: rest →
    (st = s.cfg.codes.mrDataAck →
      exec .rbyteAck s = .next { s with
        env := rest, trace := s.trace ++ [0x500], lastRaw := st, phase := s.phase.onRbyte,
        boundary := .done (.okData d) }) ∧
    (st ≠ s.cfg.codes.mrDataAck → s.cfg.legacyRead = false →
      exec .rbyteAck s = .next { s with
        env := rest, trace := s.trace ++ [0x500], lastRaw := st, boundary := .done (.fail (st.setWidth 16)) }) ∧
    (st ≠ s.cfg.codes.mrDataAck → s.cfg.legacyRead = true →
      exec .rbyteAck s = .next { s with
        env := rest, trace := s.trace ++ [0x500], lastRaw := st, phase := s.phase.onRbyte,
        boundary := .done (.okData st) })

/-- R128, R130, R131: RBYTE_NACK answered, for either value of LEGACY_READ_DEFECT. `onRbyte` in phases no run reaches:
log 8. -/
def Obligations.RbyteNackPrimitive : Prop :=
  ∀ (s : State) (st d : Byte) (rest : List EnvEvent), s.env = .answer st d :: rest →
    (st = s.cfg.codes.mrDataNack →
      exec .rbyteNack s = .next { s with
        env := rest, trace := s.trace ++ [0x600], lastRaw := st, phase := s.phase.onRbyte,
        boundary := .done (.okData d) }) ∧
    (st ≠ s.cfg.codes.mrDataNack → s.cfg.legacyRead = false →
      exec .rbyteNack s = .next { s with
        env := rest, trace := s.trace ++ [0x600], lastRaw := st, boundary := .done (.fail (st.setWidth 16)) }) ∧
    (st ≠ s.cfg.codes.mrDataNack → s.cfg.legacyRead = true →
      exec .rbyteNack s = .next { s with
        env := rest, trace := s.trace ++ [0x600], lastRaw := st, phase := s.phase.onRbyte,
        boundary := .done (.okData st) })

/-- R14, R123, R248: a micro-operation other than STOP whose `BusWait()` does not return is issued, changes nothing else, and
stays pending at the boundary. -/
def Obligations.UnansweredPrimitiveWaits : Prop :=
  ∀ (s : State) (u : MicroOp), u ≠ .stop → (∀ st d rest, s.env ≠ .answer st d :: rest) →
    exec u.toInstr s = .next { s with trace := s.trace ++ [u.word], boundary := .waiting u }

/-! TRANSMIT -/

/-- R185, R187, R188: a TRANSMIT of an idle, configured controller whose buffer the memory admits, with every phase answered
by its expected status. The next state in full: with keep = 0 one START, one address write, the n data writes in order and
one STOP; with keep = 1 no STOP, and the bus stays open. n may be 0 (R188), and the addresses may wrap (R62). The host's
turn does not fall before the STOP (`rest` does not begin with a hold: log 6). The bus phase is R39's. -/
def Obligations.TransmitSucceeds : Prop :=
  ∀ (s : State) (sla : SlaveAddr) (keep : Bool) (st x y : Byte) (acks : List Byte) (rest : List EnvEvent),
    s.Idle → s.configured = true →
    (st = s.cfg.codes.start ∨ st = s.cfg.codes.repStart) → acks.length = s.len.toNat →
    (∀ i < s.len.toNat, memOkRead s.cfg (bufAddr s.cfg s.buf i) = true) → rest.head? ≠ some .hold →
    s.env = answers ((st, x) :: (s.cfg.codes.mtSlaAck, y) :: acks.map fun d => (s.cfg.codes.mtDataAck, d)) ++ rest →
    exec (.transmit sla keep) s = .next { s with
      env := rest, resFail := false, resCode := 0,
      lastRaw := if s.len = 0 then s.cfg.codes.mtSlaAck else s.cfg.codes.mtDataAck,
      busOpen := keep, phase := if keep then .openHeld else .stopped,
      trace := s.trace ++ transmitTrace s.cfg s.buf s.mem s.len.toNat sla keep }

/-- R186, R188: a TRANSMIT whose data byte k fails. Bytes 0 to k are sent, no STOP is, BUS_OPEN stays 1, and the failure is
that status. The phase becomes Open (R39: "a failure left the bus held"). -/
def Obligations.TransmitDataFailure : Prop :=
  ∀ (s : State) (sla : SlaveAddr) (keep : Bool) (st x y bad z : Byte) (acks : List Byte) (rest : List EnvEvent),
    s.Idle → s.configured = true →
    (st = s.cfg.codes.start ∨ st = s.cfg.codes.repStart) → acks.length < s.len.toNat →
    bad ≠ s.cfg.codes.mtDataAck →
    (∀ i ≤ acks.length, memOkRead s.cfg (bufAddr s.cfg s.buf i) = true) →
    s.env = answers ((st, x) :: (s.cfg.codes.mtSlaAck, y) :: (acks.map fun d => (s.cfg.codes.mtDataAck, d)) ++ [(bad, z)])
      ++ rest →
    exec (.transmit sla keep) s = .next { s with
      env := rest, resFail := true, resCode := bad.setWidth 16, lastRaw := bad, busOpen := true, phase := .openHeld,
      trace := s.trace ++ [0x100, 0x300 ||| (addrByte sla false).setWidth 12] ++
        writeWords s.cfg s.buf s.mem (acks.length + 1) }

/-- R124, R186, R193, R245: a TRANSMIT, or a RECEIVE of at least one byte, whose START fails. BUS_OPEN is unchanged. -/
def Obligations.StartFailureEndsCommand : Prop :=
  ∀ (s : State) (i : Instr) (bad x : Byte) (rest : List EnvEvent), s.Idle → s.configured = true →
    s.phase.resting = true →
    ((∃ sla keep, i = .transmit sla keep) ∨ (∃ sla, i = .receive sla ∧ s.len ≠ 0)) →
    bad ≠ s.cfg.codes.start → bad ≠ s.cfg.codes.repStart → s.env = .answer bad x :: rest →
    exec i s = .next { s with
      env := rest, resFail := true, resCode := bad.setWidth 16, lastRaw := bad, trace := s.trace ++ [0x100] }

/-- R31, R126, R186, R193: a TRANSMIT, or a RECEIVE of at least one byte, whose address phase fails. No data byte, no STOP,
BUS_OPEN = 1. That the phase is then Open, from Started, is the model's reading of R31 and R39 (DEDUCED, log 9). -/
def Obligations.AddressFailureEndsCommand : Prop :=
  ∀ (s : State) (sla : SlaveAddr) (keep : Bool) (st x bad y : Byte) (rest : List EnvEvent), s.Idle → s.configured = true →
    (st = s.cfg.codes.start ∨ st = s.cfg.codes.repStart) → s.env = .answer st x :: .answer bad y :: rest →
    (bad ≠ s.cfg.codes.mtSlaAck →
      exec (.transmit sla keep) s = .next { s with
        env := rest, resFail := true, resCode := bad.setWidth 16, lastRaw := bad, busOpen := true, phase := .openHeld,
        trace := s.trace ++ [0x100, 0x300 ||| (addrByte sla false).setWidth 12] }) ∧
    (bad ≠ s.cfg.codes.mrSlaAck → s.len ≠ 0 →
      exec (.receive sla) s = .next { s with
        env := rest, resFail := true, resCode := bad.setWidth 16, lastRaw := bad, busOpen := true, phase := .openHeld,
        trace := s.trace ++ [0x100, 0x300 ||| (addrByte sla true).setWidth 12] })

/-- R66, R186, R188, R196, R197: whatever the bus environment answers or leaves unanswered, a TRANSMIT sends an initial part
of the successful trace, sends all of it if it ends with Success (and, with keep = 0, only then), and never writes the buffer
memory. -/
def Obligations.TransmitTraceIsInitialPart : Prop :=
  ∀ (s t : State) (sla : SlaveAddr) (keep : Bool), s.Idle → s.configured = true →
    exec (.transmit sla keep) s = .next t →
    t.mem = s.mem ∧
    ∃ sent, t.trace = s.trace ++ sent ∧ sent <+: transmitTrace s.cfg s.buf s.mem s.len.toNat sla keep ∧
      (t.busy = false → t.resFail = false → sent = transmitTrace s.cfg s.buf s.mem s.len.toNat sla keep) ∧
      (t.busy = false → keep = false → sent = transmitTrace s.cfg s.buf s.mem s.len.toNat sla keep → t.resFail = false)

/-! RECEIVE -/

/-- R190, R194 (and R131 with LEGACY_READ_DEFECT): a RECEIVE of n ≥ 1 bytes with every phase succeeding, where `got` lists the
byte each read delivers. The trace is START, the read address, n - 1 ACK reads, one NACK read and one STOP; slot i, at
`trunc_ADDR_W(base + i)`, holds byte i unless a later slot is the same address (a buffer longer than the memory, R62); every
byte of memory outside the slots and every register not named are unchanged. The host's turn does not fall before the STOP
(log 6). -/
def Obligations.ReceiveSucceeds : Prop :=
  ∀ (s : State) (sla : SlaveAddr) (st x y : Byte) (reads : List (Byte × Byte)) (got : List Byte) (rest : List EnvEvent),
    s.Idle → s.configured = true → s.mem.wf → s.len ≠ 0 →
    (st = s.cfg.codes.start ∨ st = s.cfg.codes.repStart) →
    reads.length = s.len.toNat → got.length = s.len.toNat →
    (∀ i (hr : i < reads.length) (hg : i < got.length),
      readOutcome s.cfg (if i + 1 < s.len.toNat then .rbyteAck else .rbyteNack) reads[i].1 reads[i].2 = .okData got[i]) →
    (∀ i < s.len.toNat, memOkWrite s.cfg (bufAddr s.cfg s.buf i) = true) → rest.head? ≠ some .hold →
    s.env = answers ((st, x) :: (s.cfg.codes.mrSlaAck, y) :: reads) ++ rest →
    ∃ t, exec (.receive sla) s = .next t ∧
      t = { s with
        env := rest, resFail := false, resCode := 0, lastRaw := t.lastRaw, busOpen := false, phase := .stopped,
        trace := s.trace ++ receiveTrace s.len.toNat sla s.len.toNat, mem := t.mem } ∧
      (∀ z ∈ reads.getLast?, t.lastRaw = z.1) ∧
      (∀ i (hg : i < got.length),
        (∀ j, i < j → j < got.length → bufAddr s.cfg s.buf j ≠ bufAddr s.cfg s.buf i) →
        t.mem.get (bufAddr s.cfg s.buf i) = got[i]) ∧
      (∀ a, (∀ i < s.len.toNat, a ≠ bufAddr s.cfg s.buf i) → t.mem.get a = s.mem.get a)

/-- R192, R194: a RECEIVE whose read k fails (LEGACY_READ_DEFECT = false). No further read is issued, STOP is, BUS_OPEN is 0,
the failure is that status, slots 0 to k - 1 hold the bytes received (the last one, where two are the same address), and no
other byte of memory changes. The host's turn does not fall before the STOP (log 6). -/
def Obligations.ReceiveReadFailure : Prop :=
  ∀ (s : State) (sla : SlaveAddr) (st x y bad z : Byte) (got : List Byte) (rest : List EnvEvent),
    s.Idle → s.configured = true → s.mem.wf → s.cfg.legacyRead = false →
    got.length < s.len.toNat →
    (st = s.cfg.codes.start ∨ st = s.cfg.codes.repStart) →
    bad ≠ (if got.length + 1 < s.len.toNat then s.cfg.codes.mrDataAck else s.cfg.codes.mrDataNack) →
    (∀ i < got.length, memOkWrite s.cfg (bufAddr s.cfg s.buf i) = true) → rest.head? ≠ some .hold →
    s.env = answers ((st, x) :: (s.cfg.codes.mrSlaAck, y) :: (got.map fun d => (s.cfg.codes.mrDataAck, d)) ++ [(bad, z)])
      ++ rest →
    ∃ t, exec (.receive sla) s = .next t ∧
      t = { s with
        env := rest, resFail := true, resCode := bad.setWidth 16, lastRaw := bad, busOpen := false, phase := .stopped,
        trace := s.trace ++ receiveTrace s.len.toNat sla (got.length + 1), mem := t.mem } ∧
      (∀ i (hg : i < got.length),
        (∀ j, i < j → j < got.length → bufAddr s.cfg s.buf j ≠ bufAddr s.cfg s.buf i) →
        t.mem.get (bufAddr s.cfg s.buf i) = got[i]) ∧
      (∀ a, (∀ i < got.length, a ≠ bufAddr s.cfg s.buf i) → t.mem.get a = s.mem.get a)

/-- R66, R193, R194, R196, R197: whatever the bus environment answers or leaves unanswered, a RECEIVE sends an initial part
of a trace START, WADDR, at least one read, the reads in order, STOP; when it ends with Success it sent all n reads and the
STOP. -/
def Obligations.ReceiveTraceIsInitialPart : Prop :=
  ∀ (s t : State) (sla : SlaveAddr), s.Idle → s.configured = true → s.len ≠ 0 →
    exec (.receive sla) s = .next t →
    ∃ sent, t.trace = s.trace ++ sent ∧
      (∃ k, 1 ≤ k ∧ k ≤ s.len.toNat ∧ sent <+: receiveTrace s.len.toNat sla k) ∧
      (t.busy = false → t.resFail = false → sent = receiveTrace s.len.toNat sla s.len.toNat)

/-- R63: whatever the bus environment answers, a RECEIVE writes no byte of memory but its slots, and keeps the memory's
canonical form. -/
def Obligations.ReceiveWritesOnlyItsSlots : Prop :=
  ∀ (s t : State) (sla : SlaveAddr), s.Idle → s.mem.wf → exec (.receive sla) s = .next t →
    t.mem.wf ∧ ∀ a, (∀ i < s.len.toNat, a ≠ bufAddr s.cfg s.buf i) → t.mem.get a = s.mem.get a

/-! Every command -/

/-- R180, R248: on an idle controller with admissible parameters every command answers a next state, and in it either the
command has ended (BUSY = 0) or the controller waits: on a phase not answered, on the host's turn (log 6), or on a buffer
access the memory does not admit. -/
def Obligations.CommandEndsOrWaits : Prop :=
  ∀ (s : State) (i : Instr), s.Idle → s.cfg.admissible = true → i.isCommand = true →
    ∃ t, exec i s = .next t ∧ (t.busy = false ∨ t.canMove = false)

/-- R248, R276: with the assumptions R248 asks for, that the bus environment completes every phase (it answers, at least
`LEN + 2` times: log 1) and that MEM_OK admits every byte of the buffer, every command on an idle controller ends. -/
def Obligations.AnsweredCommandEnds : Prop :=
  ∀ (s : State) (i : Instr), s.Idle → s.cfg.admissible = true → i.isCommand = true → allAnswers s.env = true →
    s.len.toNat + 2 ≤ s.env.length →
    (∀ k < s.len.toNat, memOkRead s.cfg (bufAddr s.cfg s.buf k) = true ∧ memOkWrite s.cfg (bufAddr s.cfg s.buf k) = true) →
    ∃ t, exec i s = .next t ∧ t.busy = false

/-- R180, R185, R190: running a command inside its CMD write and letting the sequencer make one move a step agree: from the
started command, some number of steps reaches the state `exec` answers. That the controller has every turn while it can move
is the model's choice (DESIGN CHOICE, log 6). -/
def Obligations.CommandEqualsItsSteps : Prop :=
  ∀ (s : State) (sla : SlaveAddr) (keep : Bool), s.Idle → s.cfg.admissible = true → s.configured = true →
    (∃ k t, Sys2Proof.core.run k (startCommand (latched .transmit sla keep .start s) s) = .next t ∧
      exec (.transmit sla keep) s = .next t) ∧
    (s.len ≠ 0 → ∃ k t, Sys2Proof.core.run k (startCommand (latched .receive sla false .start s) s) = .next t ∧
      exec (.receive sla) s = .next t)

/-- R38, R76, R180: a running command never reads BUF or LEN again: a move of the controller does what it would have done with
any other values in them, and leaves them as they are. -/
def Obligations.ArgumentsAreLatched : Prop :=
  ∀ (s : State) (b : Word) (n : Half),
    controllerMove { s with buf := b, len := n } = { controllerMove s with buf := b, len := n } ∧
    ({ s with buf := b, len := n } : State).canMove = s.canMove

/-- R31: BUS_OPEN is read by no rule: two states that differ only in it give outcomes that differ only in it. -/
def Obligations.BusOpenIsNeverRead : Prop :=
  ∀ (i : Instr) (s : State) (b : Bool),
    match exec i s, exec i { s with busOpen := b } with
    | .next t, .next t' => { t' with busOpen := false } = { t with busOpen := false }
    | .fault f, .fault f' => f' = f
    | .refused r, .refused r' => r' = r
    | _, _ => False

/-! Steps -/

/-- R23, R180: when the host's next action writes to CMD a word that decodes to i, on an idle controller, the step is exec of
i after the action is taken from the host's program. -/
def Obligations.StepRunsCommand : Prop :=
  ∀ (s : State) (w : Word) (i : Instr) (rest : List HostAction), s.Idle → s.cfg.admissible = true →
    s.program = .write s.cfg.base 32 w :: rest → decodeCommand w = .ok i →
    step s = exec i { s with program := rest }

/-- R121, R182: when the sequencer is at a step that sends micro-operation u, and the environment does not hold it back (log 6),
the step is exec of u's row, whose outcome the sequencer then takes in the same move (log 20). -/
def Obligations.StepRunsMicroOp : Prop :=
  ∀ (s : State) (p : SeqPos) (u : MicroOp), s.cfg.admissible = true → s.seq = some p → s.boundary = .free →
    p.uop = some u → (∀ rest, s.env ≠ .hold :: rest) →
    ∃ t, exec u.toInstr s = .next t ∧ step s = .next (deliver t)

/-- R123: when the answer of a phase comes late, the step that takes it completes the primitive: what follows is what would
have followed had the answer been there when the micro-operation was issued. The sequencer takes the outcome in the same move
(log 20). -/
def Obligations.LateAnswerCompletesThePhase : Prop :=
  ∀ (s w t : State) (u : MicroOp) (st d : Byte) (rest : List EnvEvent), s.cfg.admissible = true → s.seq.isSome = true →
    u ≠ .stop → (∀ st' d' rest', s.env ≠ .answer st' d' :: rest') →
    exec u.toInstr s = .next w → exec u.toInstr { s with env := .answer st d :: rest } = .next t →
    step { w with env := .answer st d :: rest } = .next (deliver t)

/-- R29, R248: a command whose phase is never answered hangs. With no answer to come, each step changes nothing but the host's
program and what the host last read: BUSY stays 1, RESULT, the buffer memory and the trace stay, and so does every condition of
this statement (`wait` and turns: log 6). So while the host waits, or has nothing to do, the hang lasts for any number of
steps. -/
def Obligations.UnansweredCommandHangs : Prop :=
  ∀ (s : State) (p : SeqPos) (u : MicroOp), s.cfg.admissible = true → s.busy = true → s.seq = some p →
    s.boundary = .waiting u → s.env = [] →
    (∀ (addr : Nat) (rest : List HostAction),
      (s.program = [] ∨ s.program = .wait :: rest ∨
        (s.program = .read addr 32 :: rest ∧ s.cfg.base ≤ addr ∧ addr < s.cfg.base + 32 ∧ (addr - s.cfg.base) % 4 = 0)) →
      ∃ t, step s = .next t ∧ t = { s with program := t.program, readData := t.readData } ∧
        t.program = (if s.program = .wait :: rest then s.program else s.program.tail) ∧
        t.busy = true ∧ t.resFail = s.resFail ∧ t.resCode = s.resCode ∧ t.mem = s.mem ∧ t.trace = s.trace ∧
        t.seq = some p ∧ t.boundary = .waiting u ∧ t.env = []) ∧
    (∀ rest : List HostAction, s.program = [] ∨ s.program = .wait :: rest →
      ∀ k : Nat, ∃ t, Sys2Proof.core.run k s = .next t ∧ t = { s with readData := t.readData })

/-- R61, R63: an access the memory does not admit leaves the sequencer stuck: with nothing for the host to do, the step
changes nothing but to drop a pause of the environment (log 6), and BUSY stays 1. -/
def Obligations.RefusedAccessSticks : Prop :=
  ∀ (s : State) (p : SeqPos), s.cfg.admissible = true → s.busy = true → s.seq = some p → s.boundary = .free →
    ((p.pc = .load ∧ memOkRead s.cfg (p.addr s.cfg) = false) ∨
      (∃ d, p.pc = .store d ∧ memOkWrite s.cfg (p.addr s.cfg) = false)) →
    s.program = [] → step s = .next { s with env := (passPause s).env }

/-- R30, R41: CONFIGURED, once 1, stays 1 in every step but a reset. The parameters never change (00_scope.md §4; R222: "no
command changes it"); that they are carried in the state, and that a reset keeps them, is the model's choice (logs 2 and 15).
-/
def Obligations.ConfiguredUntilReset : Prop :=
  ∀ s t : State, step s = .next t →
    t.cfg = s.cfg ∧ (s.configured = true → (∀ rest, s.program ≠ .reset :: rest) → t.configured = true)

/-- R26, R181: RESULT changes only at the end of a command (or on reset): a step that leaves BUSY at 1 leaves RESULT as it
was. No step ends between R181's two writes (log 20). -/
def Obligations.ResultChangesOnlyAtTheEnd : Prop :=
  ∀ s t : State, s.Inv → step s = .next t → t.busy = true → t.resFail = s.resFail ∧ t.resCode = s.resCode

/-- R66: the bus trace only grows, in every step. A reset is such a step: that it keeps the trace is the model's choice
(log 15). -/
def Obligations.TraceOnlyGrows : Prop :=
  ∀ s t : State, step s = .next t → ∃ sent, t.trace = s.trace ++ sent

/-! The host's accesses -/

/-- R37, R247: a well-shaped host write to any offset of the window while BUSY = 1, when the host's turn comes (log 6), is
HostWriteWhileBusy. -/
def Obligations.HostWriteWhileBusyFaults : Prop :=
  ∀ (s : State) (addr : Nat) (w : Word) (rest : List HostAction), s.cfg.admissible = true → s.busy = true →
    s.canMove = false → s.program = .write addr 32 w :: rest →
    s.cfg.base ≤ addr → addr < s.cfg.base + 32 → (addr - s.cfg.base) % 4 = 0 →
    step s = .fault .hostWriteWhileBusy

/-- R68, R247: an access to the window that is not 32 bits wide at an offset that is a multiple of 4, a read or a write, busy
or not (the model's choice of order, log 10), is UnsupportedRegisterAccess. That an access is to the window by its first byte,
and that one outside the window is the model's own fault, is log 11 (DESIGN CHOICE). -/
def Obligations.UnsupportedAccessFaults : Prop :=
  ∀ (s : State) (addr width : Nat) (w : Word),
    (s.cfg.base ≤ addr → addr < s.cfg.base + 32 → (width ≠ 32 ∨ (addr - s.cfg.base) % 4 ≠ 0) →
      hostAct (.write addr width w) s = .fault .unsupportedRegisterAccess ∧
      hostAct (.read addr width) s = .fault .unsupportedRegisterAccess) ∧
    ((addr < s.cfg.base ∨ s.cfg.base + 32 ≤ addr) →
      hostAct (.write addr width w) s = .fault .accessOutsideWindow ∧
      hostAct (.read addr width) s = .fault .accessOutsideWindow)

/-- R60, R62, R70, R247: a host access to byte i of the running command's buffer is HostBufferRace, and one to a byte outside
it, or while no command runs, takes place, for every address of the buffer memory. That the host's access does not depend on
MEM_OK is the model's choice (DESIGN CHOICE, log 19), and so is the fault at an address that does not exist (log 11). -/
def Obligations.BufferRaceFaults : Prop :=
  ∀ (s : State) (a : Nat) (v : Byte),
    (2 ^ s.cfg.addrW ≤ a →
      hostAct (.bufRead a) s = .fault .noSuchBufferAddress ∧ hostAct (.bufWrite a v) s = .fault .noSuchBufferAddress) ∧
    (s.busy = false → a < 2 ^ s.cfg.addrW →
      hostAct (.bufRead a) s = .next { s with readData := (s.mem.get a).setWidth 32 } ∧
      hostAct (.bufWrite a v) s = .next { s with mem := s.mem.set a v }) ∧
    (∀ p : SeqPos, s.busy = true → s.seq = some p → p.kind ≠ .init → a < 2 ^ s.cfg.addrW →
      ((∃ i < p.len.toNat, a = bufAddr s.cfg p.base i) →
        hostAct (.bufRead a) s = .fault .hostBufferRace ∧ hostAct (.bufWrite a v) s = .fault .hostBufferRace) ∧
      ((∀ i < p.len.toNat, a ≠ bufAddr s.cfg p.base i) →
        hostAct (.bufRead a) s = .next { s with readData := (s.mem.get a).setWidth 32 } ∧
        hostAct (.bufWrite a v) s = .next { s with mem := s.mem.set a v }))

/-- R22, R23, R26 to R28, R34, R36, R37, R108: a 32-bit read at each offset of the window: the fields at their bits, the
reserved bits 0, and no side effect; allowed while BUSY = 1. A `wait` reads STAT, and is repeated while BUSY = 1. BUF is held
as a 32-bit word (DESIGN CHOICE, log 17), so that its reserved bits read 0 needs the invariant's `bufReserved`; that `wait` is
one action is log 6. -/
def Obligations.RegisterReads : Prop :=
  ∀ s : State, ∃ v : Nat → Word,
    (∀ off, off < 32 → off % 4 = 0 → hostAct (.read (s.cfg.base + off) 32) s = .next { s with readData := v off }) ∧
    v 0x00 = 0 ∧ v 0x04 = s.buf ∧
    (v 0x08).extractLsb' 0 16 = s.len ∧ (v 0x08).extractLsb' 16 16 = 0 ∧
    (v 0x0C).extractLsb' 0 16 = s.resCode ∧ (v 0x0C).getLsbD 16 = s.resFail ∧ (v 0x0C).extractLsb' 17 15 = 0 ∧
    (v 0x10).extractLsb' 0 8 = s.lastRaw ∧ (v 0x10).getLsbD 8 = s.busy ∧ (v 0x10).getLsbD 9 = s.configured ∧
    (v 0x10).getLsbD 10 = s.busOpen ∧ (v 0x10).getLsbD 11 = s.pullup ∧ (v 0x10).extractLsb' 12 2 = s.mode ∧
    (v 0x10).extractLsb' 14 18 = 0 ∧
    (v 0x14).extractLsb' 0 8 = s.divValue ∧ (v 0x14).getLsbD 8 = s.divSet ∧ (v 0x14).extractLsb' 9 23 = 0 ∧
    v 0x18 = 0 ∧ v 0x1C = 0 ∧
    (s.buf.toNat < 2 ^ s.cfg.addrW → ∀ i, s.cfg.addrW ≤ i → (v 0x04).getLsbD i = false) ∧
    hostAct .wait s = .next { s with
      readData := v 0x10, program := if s.busy then .wait :: s.program else s.program }

/-- R24, R25, R36, R37: a 32-bit write while BUSY = 0 to BUF or LEN stores only the defined field; one to RESULT, STAT, DIV or
a reserved offset is ignored. BUF is held as a 32-bit word (DESIGN CHOICE, log 17). -/
def Obligations.RegisterWrites : Prop :=
  ∀ (s : State) (w : Word), s.busy = false → s.cfg.addrW ≤ 32 →
    (∃ b : Word, hostAct (.write (s.cfg.base + 0x04) 32 w) s = .next { s with buf := b } ∧
      ∀ i, i < 32 → b.getLsbD i = (decide (i < s.cfg.addrW) && w.getLsbD i)) ∧
    hostAct (.write (s.cfg.base + 0x08) 32 w) s = .next { s with len := w.extractLsb' 0 16 } ∧
    (∀ off ∈ [0x0C, 0x10, 0x14, 0x18, 0x1C], hostAct (.write (s.cfg.base + off) 32 w) s = .next s)

/-! Memory -/

/-- R60, R69: the buffer memory is ordinary memory: a byte written reads back, every other byte is as before, and the
canonical form is kept. -/
def Obligations.MemoryReadAfterWrite : Prop :=
  ∀ (m : Memory) (a b : Nat) (v : Byte), m.wf →
    (m.set a v).wf ∧ (m.set a v).get a = v ∧ (b ≠ a → (m.set a v).get b = m.get b)

/-- Two memories in canonical form that read alike are the same list: the form is canonical. -/
def Obligations.CanonicalMemoriesAreEqual : Prop :=
  ∀ m m' : Memory, m.wf → m'.wf → (∀ a, m.get a = m'.get a) → m = m'

/-! The turn -/

/-- R8, R11, R73, R108, R223: what a step is, in every state. Inadmissible parameters are refused. Otherwise the controller
moves while it can; when it cannot, the step is the host's next action (if it has one), taken from its program, after the
environment's pause. Outside a command, or where the environment's list does not begin with a pause, nothing is passed; else the
pause is, and nothing more. Whose turn it is is the model's choice (DESIGN CHOICE, log 6). -/
def Obligations.StepIsOneTurn : Prop :=
  ∀ s : State,
    (s.cfg.admissible = false → step s = .refused .inadmissibleConfiguration) ∧
    (s.cfg.admissible = true → s.canMove = true → step s = .next (controllerMove s)) ∧
    (s.cfg.admissible = true → s.canMove = false → s.program = [] → step s = .next (passPause s)) ∧
    (∀ (a : HostAction) (rest : List HostAction), s.cfg.admissible = true → s.canMove = false → s.program = a :: rest →
      step s = hostAct a { passPause s with program := rest }) ∧
    passPause s = { s with
      env := if s.seq.isSome && (s.env.head? == some .late || s.env.head? == some .hold) then s.env.tail else s.env }
end

