-- ==== Sys2Proof/Laws/Boundary.lean ====
section
/-! SUPPORT. What the bus-side boundary and the primitives can do (R123 to R131), said once: the completion of a phase, the
two outcomes of a wait, and the moves of the controller by its position and boundary. -/

namespace Sys2Proof.Machine

/-- The outcome of a micro-operation that waits, from the answer it gets (R126 to R131, R162). -/
def phaseOutcome (c : Config) (u : MicroOp) (st d : Byte) : PrimOutcome :=
  match u with
  | .start => translateStatus c.codes .start st
  | .stop => .ok
  | .waddr b => translateStatus c.codes (waddrKind b) st
  | .wbyte _ => translateStatus c.codes .wbyte st
  | .rbyteAck => readOutcome c .rbyteAck st d
  | .rbyteNack => readOutcome c .rbyteNack st d

/-- The bus phase after a micro-operation that succeeded (R39). -/
def phaseAfter (u : MicroOp) (ph : BusPhase) : BusPhase :=
  match u with
  | .start => .started
  | .stop => .stopped
  | .waddr _ => ph.onWaddr
  | .wbyte _ => ph.onWbyte
  | .rbyteAck => ph.onRbyte
  | .rbyteNack => ph.onRbyte

theorem translateStatus_isOk (c : StatusCodes) (k : PrimKind) (st : Byte) :
    (translateStatus c k st).isOk = statusOk c k st := by
  unfold translateStatus; split <;> simp_all [PrimOutcome.isOk]

theorem translateStatus_of_ok {c : StatusCodes} {k : PrimKind} {st : Byte} (h : statusOk c k st = true) :
    translateStatus c k st = .ok := by simp [translateStatus, h]

/-- All a completed phase does: LAST_RAW, the outcome, and on success BUS_OPEN (START only) and the bus phase. -/
theorem completePhase_eq (u : MicroOp) (hu : u ≠ .stop) (st d : Byte) (s : State) :
    completePhase u st d s = { s with
      lastRaw := st, boundary := .done (phaseOutcome s.cfg u st d),
      busOpen := if (phaseOutcome s.cfg u st d).isOk ∧ u = .start then true else s.busOpen,
      phase := if (phaseOutcome s.cfg u st d).isOk then phaseAfter u s.phase else s.phase } := by
  cases u with
  | stop => exact absurd rfl hu
  | start =>
    simp only [completePhase, completeStart, phaseOutcome, translateStatus_isOk, phaseAfter]
    split <;> simp_all [translateStatus_of_ok]
  | waddr b =>
    simp only [completePhase, completeWaddr, phaseOutcome, translateStatus_isOk, phaseAfter]
    split <;> simp_all [translateStatus_of_ok]
  | wbyte b =>
    simp only [completePhase, completeWbyte, phaseOutcome, translateStatus_isOk, phaseAfter]
    split <;> simp_all [translateStatus_of_ok]
  | rbyteAck =>
    simp only [completePhase, completeRbyte, phaseOutcome, phaseAfter]
    split <;> simp_all
  | rbyteNack =>
    simp only [completePhase, completeRbyte, phaseOutcome, phaseAfter]
    split <;> simp_all

theorem performUop_eq (u : MicroOp) (hu : u ≠ .stop) (s : State) :
    performUop u s = busWait u (completePhase u) (busIssue u s) := by
  cases u with
  | stop => exact absurd rfl hu
  | start => rfl
  | waddr b => rfl
  | wbyte d => rfl
  | rbyteAck => rfl
  | rbyteNack => rfl

theorem busWait_answer {u : MicroOp} {k : Byte → Byte → State → State} {s : State} {st d : Byte} {rest : List EnvEvent}
    (h : s.env = .answer st d :: rest) : busWait u k s = k st d { s with env := rest } := by
  simp [busWait, h]

theorem busWait_unanswered {u : MicroOp} {k : Byte → Byte → State → State} {s : State}
    (h : ∀ st d rest, s.env ≠ .answer st d :: rest) : busWait u k s = { s with boundary := .waiting u } := by
  unfold busWait; split
  · exact absurd ‹_› (h _ _ _)
  · rfl

theorem answered_or (e : List EnvEvent) :
    (∃ st d rest, e = .answer st d :: rest) ∨ ∀ st d rest, e ≠ .answer st d :: rest := by
  cases e with
  | nil => right; simp
  | cons x xs => cases x <;> simp

theorem exec_toInstr (u : MicroOp) (s : State) : exec u.toInstr s = .next (performUop u s) := by
  cases u <;> rfl

theorem readOutcome_ne_ok (c : Config) (k : PrimKind) (st d : Byte) : readOutcome c k st d ≠ .ok := by
  unfold readOutcome; split <;> (try split) <;> simp

/-- A pause's end touches nothing but the environment's list. -/
theorem passPause_eq (s : State) : ∃ e, passPause s = { s with env := e } := by
  unfold passPause; split
  · exact ⟨_, rfl⟩
  · exact ⟨_, rfl⟩
  · exact ⟨s.env, rfl⟩

theorem deliver_done {s : State} {p : SeqPos} {r : PrimOutcome} (hs : s.seq = some p) (hb : s.boundary = .done r) :
    deliver s = advance p r { s with boundary := .free } := by simp [deliver, hs, hb]

theorem deliver_idle {s : State} (hs : s.seq = none) : deliver s = s := by simp [deliver, hs]

theorem deliver_not_done {s : State} (hb : ∀ r, s.boundary ≠ .done r) : deliver s = s := by
  unfold deliver; split
  · exact absurd ‹_› (hb _)
  · rfl

theorem controllerMove_idle {s : State} (hs : s.seq = none) : controllerMove s = s := by simp [controllerMove, hs]

theorem controllerMove_waiting {s : State} {p : SeqPos} {u : MicroOp} (hs : s.seq = some p) (hb : s.boundary = .waiting u) :
    controllerMove s = deliver (busWait u (completePhase u) s) := by simp [controllerMove, hs, hb]

theorem controllerMove_done {s : State} {p : SeqPos} {r : PrimOutcome} (hs : s.seq = some p) (hb : s.boundary = .done r) :
    controllerMove s = deliver s := by simp [controllerMove, hs, hb]

theorem controllerMove_free {s : State} {p : SeqPos} (hs : s.seq = some p) (hb : s.boundary = .free) :
    controllerMove s = sequencerStep p s := by simp [controllerMove, hs, hb]

end Sys2Proof.Machine
end

