-- ==== Sys2Proof/Laws/Memory.lean ====
section
/-! SUPPORT. The buffer memory: every operation keeps the canonical form, a byte written reads back, every other byte is as
before (R60, R69). -/

namespace Sys2Proof.Machine

theorem Memory.wf_nil : Memory.wf [] := by simp [Memory.wf]

theorem Memory.wf_tail {c : Host.Cell} {m : Memory} (h : Memory.wf (c :: m)) : m.wf := by
  obtain ⟨h1, h2⟩ := h
  exact ⟨(List.pairwise_cons.mp h1).2, fun c hc => h2 c (List.mem_cons_of_mem _ hc)⟩

/-- Below the first listed address every byte reads as unlisted. -/
theorem Memory.get_lt {m : Memory} {a : Nat} (h : ∀ c ∈ m, a < c.1) : m.get a = unlisted := by
  cases m with
  | nil => rfl
  | cons c m => simp [Memory.get, h c (by simp)]

theorem Memory.mem_set {m : Memory} {a : Nat} {v : Byte} {c : Host.Cell} (h : c ∈ m.set a v) :
    c ∈ m ∨ (c.1 = a ∧ c.2 = v ∧ v ≠ unlisted) := by
  induction m with
  | nil =>
    simp only [Memory.set] at h
    split at h <;> simp_all
  | cons e m ih =>
    simp only [Memory.set] at h
    split_ifs at h <;> simp only [List.mem_cons] at h ⊢ <;> (try rcases h with rfl | h) <;> simp_all; tauto

theorem Memory.set_wf {m : Memory} (a : Nat) (v : Byte) (h : m.wf) : (m.set a v).wf := by
  induction m with
  | nil => simp only [Memory.set]; split_ifs <;> simp_all [Memory.wf]
  | cons e m ih =>
    have ht := ih (Memory.wf_tail h)
    obtain ⟨h1, h2⟩ := h
    have hlt := (List.pairwise_cons.mp h1).1
    simp only [Memory.set]
    split_ifs with ha hv he hv
    · exact ⟨h1, h2⟩
    · refine ⟨List.pairwise_cons.mpr ⟨?_, h1⟩, ?_⟩
      · intro c hc
        rcases List.mem_cons.mp hc with rfl | hc
        · exact ha
        · exact lt_trans ha (hlt c hc)
      · intro c hc
        rcases List.mem_cons.mp hc with rfl | hc
        · exact hv
        · exact h2 c hc
    · exact Memory.wf_tail ⟨h1, h2⟩
    · refine ⟨List.pairwise_cons.mpr ⟨fun c hc => hlt c hc, (List.pairwise_cons.mp h1).2⟩, ?_⟩
      intro c hc
      rcases List.mem_cons.mp hc with rfl | hc
      · exact hv
      · exact h2 c (List.mem_cons_of_mem _ hc)
    · refine ⟨List.pairwise_cons.mpr ⟨?_, ht.1⟩, ?_⟩
      · intro c hc
        rcases Memory.mem_set hc with hc | ⟨hc, -, -⟩
        · exact hlt c hc
        · simp only [hc]; omega
      · intro c hc
        rcases List.mem_cons.mp hc with rfl | hc
        · exact h2 _ (by simp)
        · exact ht.2 c hc

theorem Memory.get_set_same {m : Memory} (a : Nat) (v : Byte) (h : m.wf) : (m.set a v).get a = v := by
  induction m with
  | nil => simp only [Memory.set]; split_ifs with hv <;> simp [Memory.get, hv]
  | cons e m ih =>
    have hlt := (List.pairwise_cons.mp h.1).1
    simp only [Memory.set]
    split_ifs with ha hv he hv
    · simp [Memory.get, ha, hv]
    · simp [Memory.get]
    · rw [Memory.get_lt (fun c hc => he ▸ hlt c hc), hv]
    · simp [Memory.get, he]
    · simp [Memory.get, ha, he, ih (Memory.wf_tail h)]

theorem Memory.get_set_other {m : Memory} {a b : Nat} (v : Byte) (h : m.wf) (hab : b ≠ a) :
    (m.set a v).get b = m.get b := by
  induction m with
  | nil =>
    simp only [Memory.set]; split_ifs <;> simp [Memory.get, hab]
  | cons e m ih =>
    have hlt := (List.pairwise_cons.mp h.1).1
    simp only [Memory.set]
    split_ifs with ha hv he hv
    · rfl
    · simp only [Memory.get]
      rcases lt_or_gt_of_ne hab with hb | hb
      · simp [hb, lt_trans hb ha]
      · simp [not_lt.mpr hb.le, hab]
    · simp only [Memory.get]
      have : b ≠ e.1 := he ▸ hab
      rcases lt_or_gt_of_ne this with hb | hb
      · rw [if_pos hb, Memory.get_lt (fun c hc => lt_trans hb (hlt c hc))]
      · rw [if_neg (not_lt.mpr hb.le), if_neg this]
    · simp [Memory.get, he ▸ hab]
    · simp [Memory.get, ih (Memory.wf_tail h)]

end Sys2Proof.Machine
end

