-- ==== Sys2Proof/Laws/PerInstr.lean ====
section
/-! SUPPORT. Statements made per instruction: the format of each instruction's encoding (R90). -/

namespace Sys2Proof.Laws.Format

/-- A command has a command word and no micro-op word, a micro-operation the reverse (R90, R182), and the encoding fits its
width. -/
def Statement (i : Instr) : Prop :=
  (encodeCommand i).isSome = i.isCommand ∧ (encodeMicro i).isSome = !i.isCommand ∧ encode i < 2 ^ encodedBits i

theorem command {i : Instr} {w : Word} (h : encodeCommand i = some w) (hm : encodeMicro i = none)
    (hc : i.isCommand = true) : Statement i := by
  refine ⟨by simp [h, hc], by simp [hm, hc], ?_⟩
  simp only [encode, h, encodedBits, hc, if_true]
  exact w.isLt

theorem micro {i : Instr} {u : UopWord} (h : encodeMicro i = some u) (hm : encodeCommand i = none)
    (hc : i.isCommand = false) : Statement i := by
  refine ⟨by simp [hm, hc], by simp [h, hc], ?_⟩
  simp only [encode, hm, h, encodedBits, hc]
  exact lt_trans u.isLt (by decide)

theorem init (mode : ModeBits) (pu : Bool) : Statement (.init mode pu) := command rfl rfl rfl
theorem transmit (sla : SlaveAddr) (keep : Bool) : Statement (.transmit sla keep) := command rfl rfl rfl
theorem receive (sla : SlaveAddr) : Statement (.receive sla) := command rfl rfl rfl
theorem start : Statement .start := micro rfl rfl rfl
theorem stop : Statement .stop := micro rfl rfl rfl
theorem waddr (b : Byte) : Statement (.waddr b) := micro rfl rfl rfl
theorem wbyte (d : Byte) : Statement (.wbyte d) := micro rfl rfl rfl
theorem rbyteAck : Statement .rbyteAck := micro rfl rfl rfl
theorem rbyteNack : Statement .rbyteNack := micro rfl rfl rfl

end Sys2Proof.Laws.Format
end

