-- ==== Sys2Proof/Laws/Sequencer.lean ====
section
/-! SUPPORT. What one move of the controller does at each kind of step (R185, R190), and how a run of moves unfolds. -/

namespace Sys2Proof.Machine

theorem runController_step {s : State} {f : Nat} (h : s.canMove = true) :
    runController (f + 1) s = runController f (controllerMove s) := by simp [runController, h]

theorem runController_blocked {s : State} {f : Nat} (h : s.canMove = false) : runController f s = s := by
  cases f <;> simp [runController, h]

theorem canMove_idle {s : State} (h : s.seq = none) : s.canMove = false := by simp [State.canMove, h]

theorem runController_idle {s : State} {f : Nat} (h : s.seq = none) : runController f s = s :=
  runController_blocked (canMove_idle h)

/-- A property that every move keeps holds after any number of moves. -/
theorem runController_induct {P : State → Prop} (hmove : ∀ s, P s → s.canMove = true → P (controllerMove s)) (f : Nat) :
    ∀ s, P s → P (runController f s) := by
  induction f with
  | zero => exact fun s h => h
  | succ f ih =>
    intro s h
    unfold runController
    split
    · exact ih _ (hmove s h ‹_›)
    · exact h

/-- With no phase in progress and no hold, the controller can move wherever the memory admits the step. -/
theorem canMove_free {s : State} {p : SeqPos} (hs : s.seq = some p) (hb : s.boundary = .free) (hp : p.pc ≠ .configure)
    (hm : memAdmits s.cfg p = true) (he : s.env.head? ≠ some .hold) : s.canMove = true := by
  simp only [State.canMove, hs, hb]
  cases h : s.env with
  | nil => simp [hp, hm]
  | cons e l => cases e <;> simp_all

/-- A step that sends micro-operation u is u's primitive, whose outcome the sequencer takes. -/
theorem sequencerStep_uop {p : SeqPos} {u : MicroOp} (hu : p.uop = some u) (s : State) :
    sequencerStep p s = deliver (performUop u s) := by
  unfold sequencerStep
  cases hp : p.pc <;> simp_all [SeqPos.uop]

/-- A position that sends a micro-operation makes no memory access. -/
theorem memAdmits_of_uop {p : SeqPos} {u : MicroOp} (hu : p.uop = some u) (c : Config) :
    memAdmits c p = true ∧ p.pc ≠ .configure := by
  unfold memAdmits
  cases hp : p.pc <;> simp_all [SeqPos.uop]

/-- A step whose micro-operation is answered at once: the trace, LAST_RAW, BUS_OPEN and the phase take the primitive's
effect, and the sequencer advances by the outcome. -/
theorem controllerMove_answered {s : State} {p : SeqPos} {u : MicroOp} {st d : Byte} {rest : List EnvEvent}
    (hs : s.seq = some p) (hb : s.boundary = .free) (hu : p.uop = some u) (hu' : u ≠ .stop)
    (he : s.env = .answer st d :: rest) :
    controllerMove s = advance p (phaseOutcome s.cfg u st d) { s with
      env := rest, trace := s.trace ++ [u.word], lastRaw := st, boundary := .free,
      busOpen := if (phaseOutcome s.cfg u st d).isOk ∧ u = .start then true else s.busOpen,
      phase := if (phaseOutcome s.cfg u st d).isOk then phaseAfter u s.phase else s.phase } := by
  rw [controllerMove_free hs hb, sequencerStep_uop hu, performUop_eq u hu', busWait_answer (s := busIssue u s) he,
    completePhase_eq u hu', deliver_done (p := p) (r := phaseOutcome s.cfg u st d)]
  · rfl
  · exact hs
  · rfl

/-- A step whose micro-operation is not answered: it is issued, and the controller waits on it. -/
theorem controllerMove_unanswered {s : State} {p : SeqPos} {u : MicroOp} (hs : s.seq = some p) (hb : s.boundary = .free)
    (hu : p.uop = some u) (hu' : u ≠ .stop) (he : ∀ st d rest, s.env ≠ .answer st d :: rest) :
    controllerMove s = { s with trace := s.trace ++ [u.word], boundary := .waiting u } := by
  rw [controllerMove_free hs hb, sequencerStep_uop hu, performUop_eq u hu', busWait_unanswered (s := busIssue u s) he,
    deliver_not_done (by simp)]
  rfl

/-- The answer of the phase in progress. -/
theorem controllerMove_answer {s : State} {p : SeqPos} {u : MicroOp} {st d : Byte} {rest : List EnvEvent}
    (hs : s.seq = some p) (hb : s.boundary = .waiting u) (hu' : u ≠ .stop) (he : s.env = .answer st d :: rest) :
    controllerMove s = advance p (phaseOutcome s.cfg u st d) { s with
      env := rest, lastRaw := st, boundary := .free,
      busOpen := if (phaseOutcome s.cfg u st d).isOk ∧ u = .start then true else s.busOpen,
      phase := if (phaseOutcome s.cfg u st d).isOk then phaseAfter u s.phase else s.phase } := by
  rw [controllerMove_waiting hs hb, busWait_answer he, completePhase_eq u hu',
    deliver_done (p := p) (r := phaseOutcome s.cfg u st d)]
  · exact hs
  · rfl

/-- The final STOP ends the command. -/
theorem controllerMove_stop {s : State} {p : SeqPos} {res : Result} (hs : s.seq = some p) (hb : s.boundary = .free)
    (hp : p.pc = .stop res) :
    controllerMove s = endTransfer res { s with
      trace := s.trace ++ [0x200], boundary := .free, busOpen := false, phase := .stopped } := by
  rw [controllerMove_free hs hb, sequencerStep_uop (u := .stop) (by simp [SeqPos.uop, hp])]
  simp only [performUop]
  rw [deliver_done (s := primStop s) (p := p) (r := .ok) hs rfl]
  simp only [advance, hp]
  rfl

theorem controllerMove_load {s : State} {p : SeqPos} (hs : s.seq = some p) (hb : s.boundary = .free) (hp : p.pc = .load) :
    controllerMove s = goto p (.wbyte (s.mem.get (p.addr s.cfg))) s := by
  rw [controllerMove_free hs hb]
  simp [sequencerStep, hp]

theorem controllerMove_store {s : State} {p : SeqPos} {x : Byte} (hs : s.seq = some p) (hb : s.boundary = .free)
    (hp : p.pc = .store x) :
    controllerMove s = loopHead p.nextByte { s with mem := s.mem.set (p.addr s.cfg) x } := by
  rw [controllerMove_free hs hb]
  simp [sequencerStep, hp]

end Sys2Proof.Machine
end

