-- ==== Sys2Proof/Laws/State.lean ====
section
/-! SUPPORT. One lemma per field per update: what each named operation leaves in each field of the state. A proof about a
step rewrites with these and unfolds no record update. -/

namespace Sys2Proof.Machine

section
variable (s : State)

@[simp] theorem setResult_cfg (r : Result) : (setResult r s).cfg = s.cfg := rfl
@[simp] theorem setResult_buf (r : Result) : (setResult r s).buf = s.buf := rfl
@[simp] theorem setResult_len (r : Result) : (setResult r s).len = s.len := rfl
@[simp] theorem setResult_resFail (r : Result) : (setResult r s).resFail = r.failBit := rfl
@[simp] theorem setResult_resCode (r : Result) : (setResult r s).resCode = r.code := rfl
@[simp] theorem setResult_lastRaw (r : Result) : (setResult r s).lastRaw = s.lastRaw := rfl
@[simp] theorem setResult_busy (r : Result) : (setResult r s).busy = s.busy := rfl
@[simp] theorem setResult_configured (r : Result) : (setResult r s).configured = s.configured := rfl
@[simp] theorem setResult_busOpen (r : Result) : (setResult r s).busOpen = s.busOpen := rfl
@[simp] theorem setResult_pullup (r : Result) : (setResult r s).pullup = s.pullup := rfl
@[simp] theorem setResult_mode (r : Result) : (setResult r s).mode = s.mode := rfl
@[simp] theorem setResult_divValue (r : Result) : (setResult r s).divValue = s.divValue := rfl
@[simp] theorem setResult_divSet (r : Result) : (setResult r s).divSet = s.divSet := rfl
@[simp] theorem setResult_seq (r : Result) : (setResult r s).seq = s.seq := rfl
@[simp] theorem setResult_boundary (r : Result) : (setResult r s).boundary = s.boundary := rfl
@[simp] theorem setResult_phase (r : Result) : (setResult r s).phase = s.phase := rfl
@[simp] theorem setResult_mem (r : Result) : (setResult r s).mem = s.mem := rfl
@[simp] theorem setResult_trace (r : Result) : (setResult r s).trace = s.trace := rfl
@[simp] theorem setResult_configLog (r : Result) : (setResult r s).configLog = s.configLog := rfl
@[simp] theorem setResult_program (r : Result) : (setResult r s).program = s.program := rfl
@[simp] theorem setResult_env (r : Result) : (setResult r s).env = s.env := rfl
@[simp] theorem setResult_readData (r : Result) : (setResult r s).readData = s.readData := rfl

@[simp] theorem startCommand_cfg (p : SeqPos) : (startCommand p s).cfg = s.cfg := rfl
@[simp] theorem startCommand_buf (p : SeqPos) : (startCommand p s).buf = s.buf := rfl
@[simp] theorem startCommand_len (p : SeqPos) : (startCommand p s).len = s.len := rfl
@[simp] theorem startCommand_resFail (p : SeqPos) : (startCommand p s).resFail = s.resFail := rfl
@[simp] theorem startCommand_resCode (p : SeqPos) : (startCommand p s).resCode = s.resCode := rfl
@[simp] theorem startCommand_lastRaw (p : SeqPos) : (startCommand p s).lastRaw = s.lastRaw := rfl
@[simp] theorem startCommand_busy (p : SeqPos) : (startCommand p s).busy = true := rfl
@[simp] theorem startCommand_configured (p : SeqPos) : (startCommand p s).configured = s.configured := rfl
@[simp] theorem startCommand_busOpen (p : SeqPos) : (startCommand p s).busOpen = s.busOpen := rfl
@[simp] theorem startCommand_pullup (p : SeqPos) : (startCommand p s).pullup = s.pullup := rfl
@[simp] theorem startCommand_mode (p : SeqPos) : (startCommand p s).mode = s.mode := rfl
@[simp] theorem startCommand_divValue (p : SeqPos) : (startCommand p s).divValue = s.divValue := rfl
@[simp] theorem startCommand_divSet (p : SeqPos) : (startCommand p s).divSet = s.divSet := rfl
@[simp] theorem startCommand_seq (p : SeqPos) : (startCommand p s).seq = some p := rfl
@[simp] theorem startCommand_boundary (p : SeqPos) : (startCommand p s).boundary = .free := rfl
@[simp] theorem startCommand_phase (p : SeqPos) : (startCommand p s).phase = s.phase := rfl
@[simp] theorem startCommand_mem (p : SeqPos) : (startCommand p s).mem = s.mem := rfl
@[simp] theorem startCommand_trace (p : SeqPos) : (startCommand p s).trace = s.trace := rfl
@[simp] theorem startCommand_configLog (p : SeqPos) : (startCommand p s).configLog = s.configLog := rfl
@[simp] theorem startCommand_program (p : SeqPos) : (startCommand p s).program = s.program := rfl
@[simp] theorem startCommand_env (p : SeqPos) : (startCommand p s).env = s.env := rfl
@[simp] theorem startCommand_readData (p : SeqPos) : (startCommand p s).readData = s.readData := rfl

@[simp] theorem endCommand_cfg (r : Result) : (endCommand r s).cfg = s.cfg := rfl
@[simp] theorem endCommand_buf (r : Result) : (endCommand r s).buf = s.buf := rfl
@[simp] theorem endCommand_len (r : Result) : (endCommand r s).len = s.len := rfl
@[simp] theorem endCommand_resFail (r : Result) : (endCommand r s).resFail = r.failBit := rfl
@[simp] theorem endCommand_resCode (r : Result) : (endCommand r s).resCode = r.code := rfl
@[simp] theorem endCommand_lastRaw (r : Result) : (endCommand r s).lastRaw = s.lastRaw := rfl
@[simp] theorem endCommand_busy (r : Result) : (endCommand r s).busy = false := rfl
@[simp] theorem endCommand_configured (r : Result) : (endCommand r s).configured = s.configured := rfl
@[simp] theorem endCommand_busOpen (r : Result) : (endCommand r s).busOpen = s.busOpen := rfl
@[simp] theorem endCommand_pullup (r : Result) : (endCommand r s).pullup = s.pullup := rfl
@[simp] theorem endCommand_mode (r : Result) : (endCommand r s).mode = s.mode := rfl
@[simp] theorem endCommand_divValue (r : Result) : (endCommand r s).divValue = s.divValue := rfl
@[simp] theorem endCommand_divSet (r : Result) : (endCommand r s).divSet = s.divSet := rfl
@[simp] theorem endCommand_seq (r : Result) : (endCommand r s).seq = none := rfl
@[simp] theorem endCommand_boundary (r : Result) : (endCommand r s).boundary = s.boundary := rfl
@[simp] theorem endCommand_phase (r : Result) : (endCommand r s).phase = s.phase := rfl
@[simp] theorem endCommand_mem (r : Result) : (endCommand r s).mem = s.mem := rfl
@[simp] theorem endCommand_trace (r : Result) : (endCommand r s).trace = s.trace := rfl
@[simp] theorem endCommand_configLog (r : Result) : (endCommand r s).configLog = s.configLog := rfl
@[simp] theorem endCommand_program (r : Result) : (endCommand r s).program = s.program := rfl
@[simp] theorem endCommand_env (r : Result) : (endCommand r s).env = s.env := rfl
@[simp] theorem endCommand_readData (r : Result) : (endCommand r s).readData = s.readData := rfl

@[simp] theorem endTransfer_cfg (r : Result) : (endTransfer r s).cfg = s.cfg := rfl
@[simp] theorem endTransfer_buf (r : Result) : (endTransfer r s).buf = s.buf := rfl
@[simp] theorem endTransfer_len (r : Result) : (endTransfer r s).len = s.len := rfl
@[simp] theorem endTransfer_resFail (r : Result) : (endTransfer r s).resFail = r.failBit := rfl
@[simp] theorem endTransfer_resCode (r : Result) : (endTransfer r s).resCode = r.code := rfl
@[simp] theorem endTransfer_lastRaw (r : Result) : (endTransfer r s).lastRaw = s.lastRaw := rfl
@[simp] theorem endTransfer_busy (r : Result) : (endTransfer r s).busy = false := rfl
@[simp] theorem endTransfer_configured (r : Result) : (endTransfer r s).configured = s.configured := rfl
@[simp] theorem endTransfer_busOpen (r : Result) : (endTransfer r s).busOpen = s.busOpen := rfl
@[simp] theorem endTransfer_pullup (r : Result) : (endTransfer r s).pullup = s.pullup := rfl
@[simp] theorem endTransfer_mode (r : Result) : (endTransfer r s).mode = s.mode := rfl
@[simp] theorem endTransfer_divValue (r : Result) : (endTransfer r s).divValue = s.divValue := rfl
@[simp] theorem endTransfer_divSet (r : Result) : (endTransfer r s).divSet = s.divSet := rfl
@[simp] theorem endTransfer_seq (r : Result) : (endTransfer r s).seq = none := rfl
@[simp] theorem endTransfer_boundary (r : Result) : (endTransfer r s).boundary = s.boundary := rfl
@[simp] theorem endTransfer_phase (r : Result) : (endTransfer r s).phase = s.phase.atEnd := rfl
@[simp] theorem endTransfer_mem (r : Result) : (endTransfer r s).mem = s.mem := rfl
@[simp] theorem endTransfer_trace (r : Result) : (endTransfer r s).trace = s.trace := rfl
@[simp] theorem endTransfer_configLog (r : Result) : (endTransfer r s).configLog = s.configLog := rfl
@[simp] theorem endTransfer_program (r : Result) : (endTransfer r s).program = s.program := rfl
@[simp] theorem endTransfer_env (r : Result) : (endTransfer r s).env = s.env := rfl
@[simp] theorem endTransfer_readData (r : Result) : (endTransfer r s).readData = s.readData := rfl

@[simp] theorem busIssue_cfg (u : MicroOp) : (busIssue u s).cfg = s.cfg := rfl
@[simp] theorem busIssue_buf (u : MicroOp) : (busIssue u s).buf = s.buf := rfl
@[simp] theorem busIssue_len (u : MicroOp) : (busIssue u s).len = s.len := rfl
@[simp] theorem busIssue_resFail (u : MicroOp) : (busIssue u s).resFail = s.resFail := rfl
@[simp] theorem busIssue_resCode (u : MicroOp) : (busIssue u s).resCode = s.resCode := rfl
@[simp] theorem busIssue_lastRaw (u : MicroOp) : (busIssue u s).lastRaw = s.lastRaw := rfl
@[simp] theorem busIssue_busy (u : MicroOp) : (busIssue u s).busy = s.busy := rfl
@[simp] theorem busIssue_configured (u : MicroOp) : (busIssue u s).configured = s.configured := rfl
@[simp] theorem busIssue_busOpen (u : MicroOp) : (busIssue u s).busOpen = s.busOpen := rfl
@[simp] theorem busIssue_pullup (u : MicroOp) : (busIssue u s).pullup = s.pullup := rfl
@[simp] theorem busIssue_mode (u : MicroOp) : (busIssue u s).mode = s.mode := rfl
@[simp] theorem busIssue_divValue (u : MicroOp) : (busIssue u s).divValue = s.divValue := rfl
@[simp] theorem busIssue_divSet (u : MicroOp) : (busIssue u s).divSet = s.divSet := rfl
@[simp] theorem busIssue_seq (u : MicroOp) : (busIssue u s).seq = s.seq := rfl
@[simp] theorem busIssue_boundary (u : MicroOp) : (busIssue u s).boundary = s.boundary := rfl
@[simp] theorem busIssue_phase (u : MicroOp) : (busIssue u s).phase = s.phase := rfl
@[simp] theorem busIssue_mem (u : MicroOp) : (busIssue u s).mem = s.mem := rfl
@[simp] theorem busIssue_trace (u : MicroOp) : (busIssue u s).trace = s.trace ++ [u.word] := rfl
@[simp] theorem busIssue_configLog (u : MicroOp) : (busIssue u s).configLog = s.configLog := rfl
@[simp] theorem busIssue_program (u : MicroOp) : (busIssue u s).program = s.program := rfl
@[simp] theorem busIssue_env (u : MicroOp) : (busIssue u s).env = s.env := rfl
@[simp] theorem busIssue_readData (u : MicroOp) : (busIssue u s).readData = s.readData := rfl

@[simp] theorem busConfigure_cfg (pu : Bool) (v : Byte) : (busConfigure pu v s).cfg = s.cfg := rfl
@[simp] theorem busConfigure_buf (pu : Bool) (v : Byte) : (busConfigure pu v s).buf = s.buf := rfl
@[simp] theorem busConfigure_len (pu : Bool) (v : Byte) : (busConfigure pu v s).len = s.len := rfl
@[simp] theorem busConfigure_resFail (pu : Bool) (v : Byte) : (busConfigure pu v s).resFail = s.resFail := rfl
@[simp] theorem busConfigure_resCode (pu : Bool) (v : Byte) : (busConfigure pu v s).resCode = s.resCode := rfl
@[simp] theorem busConfigure_lastRaw (pu : Bool) (v : Byte) : (busConfigure pu v s).lastRaw = s.lastRaw := rfl
@[simp] theorem busConfigure_busy (pu : Bool) (v : Byte) : (busConfigure pu v s).busy = s.busy := rfl
@[simp] theorem busConfigure_configured (pu : Bool) (v : Byte) : (busConfigure pu v s).configured = s.configured := rfl
@[simp] theorem busConfigure_busOpen (pu : Bool) (v : Byte) : (busConfigure pu v s).busOpen = s.busOpen := rfl
@[simp] theorem busConfigure_pullup (pu : Bool) (v : Byte) : (busConfigure pu v s).pullup = s.pullup := rfl
@[simp] theorem busConfigure_mode (pu : Bool) (v : Byte) : (busConfigure pu v s).mode = s.mode := rfl
@[simp] theorem busConfigure_divValue (pu : Bool) (v : Byte) : (busConfigure pu v s).divValue = s.divValue := rfl
@[simp] theorem busConfigure_divSet (pu : Bool) (v : Byte) : (busConfigure pu v s).divSet = s.divSet := rfl
@[simp] theorem busConfigure_seq (pu : Bool) (v : Byte) : (busConfigure pu v s).seq = s.seq := rfl
@[simp] theorem busConfigure_boundary (pu : Bool) (v : Byte) : (busConfigure pu v s).boundary = s.boundary := rfl
@[simp] theorem busConfigure_phase (pu : Bool) (v : Byte) : (busConfigure pu v s).phase = s.phase := rfl
@[simp] theorem busConfigure_mem (pu : Bool) (v : Byte) : (busConfigure pu v s).mem = s.mem := rfl
@[simp] theorem busConfigure_trace (pu : Bool) (v : Byte) : (busConfigure pu v s).trace = s.trace := rfl
@[simp] theorem busConfigure_configLog (pu : Bool) (v : Byte) : (busConfigure pu v s).configLog = s.configLog ++ [.pinsOutput pu, .pinsBusDriven, .writeDivisor 1 v] := rfl
@[simp] theorem busConfigure_program (pu : Bool) (v : Byte) : (busConfigure pu v s).program = s.program := rfl
@[simp] theorem busConfigure_env (pu : Bool) (v : Byte) : (busConfigure pu v s).env = s.env := rfl
@[simp] theorem busConfigure_readData (pu : Bool) (v : Byte) : (busConfigure pu v s).readData = s.readData := rfl

@[simp] theorem configure_cfg (mode : ModeBits) (pu : Bool) (v : Byte) : (configure mode pu v s).cfg = s.cfg := rfl
@[simp] theorem configure_buf (mode : ModeBits) (pu : Bool) (v : Byte) : (configure mode pu v s).buf = s.buf := rfl
@[simp] theorem configure_len (mode : ModeBits) (pu : Bool) (v : Byte) : (configure mode pu v s).len = s.len := rfl
@[simp] theorem configure_resFail (mode : ModeBits) (pu : Bool) (v : Byte) : (configure mode pu v s).resFail = s.resFail := rfl
@[simp] theorem configure_resCode (mode : ModeBits) (pu : Bool) (v : Byte) : (configure mode pu v s).resCode = s.resCode := rfl
@[simp] theorem configure_lastRaw (mode : ModeBits) (pu : Bool) (v : Byte) : (configure mode pu v s).lastRaw = s.lastRaw := rfl
@[simp] theorem configure_busy (mode : ModeBits) (pu : Bool) (v : Byte) : (configure mode pu v s).busy = s.busy := rfl
@[simp] theorem configure_configured (mode : ModeBits) (pu : Bool) (v : Byte) : (configure mode pu v s).configured = true := rfl
@[simp] theorem configure_busOpen (mode : ModeBits) (pu : Bool) (v : Byte) : (configure mode pu v s).busOpen = s.busOpen := rfl
@[simp] theorem configure_pullup (mode : ModeBits) (pu : Bool) (v : Byte) : (configure mode pu v s).pullup = pu := rfl
@[simp] theorem configure_mode (mode : ModeBits) (pu : Bool) (v : Byte) : (configure mode pu v s).mode = mode := rfl
@[simp] theorem configure_divValue (mode : ModeBits) (pu : Bool) (v : Byte) : (configure mode pu v s).divValue = v := rfl
@[simp] theorem configure_divSet (mode : ModeBits) (pu : Bool) (v : Byte) : (configure mode pu v s).divSet = true := rfl
@[simp] theorem configure_seq (mode : ModeBits) (pu : Bool) (v : Byte) : (configure mode pu v s).seq = s.seq := rfl
@[simp] theorem configure_boundary (mode : ModeBits) (pu : Bool) (v : Byte) : (configure mode pu v s).boundary = s.boundary := rfl
@[simp] theorem configure_phase (mode : ModeBits) (pu : Bool) (v : Byte) : (configure mode pu v s).phase = s.phase := rfl
@[simp] theorem configure_mem (mode : ModeBits) (pu : Bool) (v : Byte) : (configure mode pu v s).mem = s.mem := rfl
@[simp] theorem configure_trace (mode : ModeBits) (pu : Bool) (v : Byte) : (configure mode pu v s).trace = s.trace := rfl
@[simp] theorem configure_configLog (mode : ModeBits) (pu : Bool) (v : Byte) : (configure mode pu v s).configLog = s.configLog ++ [.pinsOutput pu, .pinsBusDriven, .writeDivisor 1 v] := rfl
@[simp] theorem configure_program (mode : ModeBits) (pu : Bool) (v : Byte) : (configure mode pu v s).program = s.program := rfl
@[simp] theorem configure_env (mode : ModeBits) (pu : Bool) (v : Byte) : (configure mode pu v s).env = s.env := rfl
@[simp] theorem configure_readData (mode : ModeBits) (pu : Bool) (v : Byte) : (configure mode pu v s).readData = s.readData := rfl

@[simp] theorem goto_cfg (p : SeqPos) (pc : SeqStep) : (goto p pc s).cfg = s.cfg := rfl
@[simp] theorem goto_buf (p : SeqPos) (pc : SeqStep) : (goto p pc s).buf = s.buf := rfl
@[simp] theorem goto_len (p : SeqPos) (pc : SeqStep) : (goto p pc s).len = s.len := rfl
@[simp] theorem goto_resFail (p : SeqPos) (pc : SeqStep) : (goto p pc s).resFail = s.resFail := rfl
@[simp] theorem goto_resCode (p : SeqPos) (pc : SeqStep) : (goto p pc s).resCode = s.resCode := rfl
@[simp] theorem goto_lastRaw (p : SeqPos) (pc : SeqStep) : (goto p pc s).lastRaw = s.lastRaw := rfl
@[simp] theorem goto_busy (p : SeqPos) (pc : SeqStep) : (goto p pc s).busy = s.busy := rfl
@[simp] theorem goto_configured (p : SeqPos) (pc : SeqStep) : (goto p pc s).configured = s.configured := rfl
@[simp] theorem goto_busOpen (p : SeqPos) (pc : SeqStep) : (goto p pc s).busOpen = s.busOpen := rfl
@[simp] theorem goto_pullup (p : SeqPos) (pc : SeqStep) : (goto p pc s).pullup = s.pullup := rfl
@[simp] theorem goto_mode (p : SeqPos) (pc : SeqStep) : (goto p pc s).mode = s.mode := rfl
@[simp] theorem goto_divValue (p : SeqPos) (pc : SeqStep) : (goto p pc s).divValue = s.divValue := rfl
@[simp] theorem goto_divSet (p : SeqPos) (pc : SeqStep) : (goto p pc s).divSet = s.divSet := rfl
@[simp] theorem goto_seq (p : SeqPos) (pc : SeqStep) : (goto p pc s).seq = some { p with pc := pc } := rfl
@[simp] theorem goto_boundary (p : SeqPos) (pc : SeqStep) : (goto p pc s).boundary = s.boundary := rfl
@[simp] theorem goto_phase (p : SeqPos) (pc : SeqStep) : (goto p pc s).phase = s.phase := rfl
@[simp] theorem goto_mem (p : SeqPos) (pc : SeqStep) : (goto p pc s).mem = s.mem := rfl
@[simp] theorem goto_trace (p : SeqPos) (pc : SeqStep) : (goto p pc s).trace = s.trace := rfl
@[simp] theorem goto_configLog (p : SeqPos) (pc : SeqStep) : (goto p pc s).configLog = s.configLog := rfl
@[simp] theorem goto_program (p : SeqPos) (pc : SeqStep) : (goto p pc s).program = s.program := rfl
@[simp] theorem goto_env (p : SeqPos) (pc : SeqStep) : (goto p pc s).env = s.env := rfl
@[simp] theorem goto_readData (p : SeqPos) (pc : SeqStep) : (goto p pc s).readData = s.readData := rfl

@[simp] theorem primStop_cfg : (primStop s).cfg = s.cfg := rfl
@[simp] theorem primStop_buf : (primStop s).buf = s.buf := rfl
@[simp] theorem primStop_len : (primStop s).len = s.len := rfl
@[simp] theorem primStop_resFail : (primStop s).resFail = s.resFail := rfl
@[simp] theorem primStop_resCode : (primStop s).resCode = s.resCode := rfl
@[simp] theorem primStop_lastRaw : (primStop s).lastRaw = s.lastRaw := rfl
@[simp] theorem primStop_busy : (primStop s).busy = s.busy := rfl
@[simp] theorem primStop_configured : (primStop s).configured = s.configured := rfl
@[simp] theorem primStop_busOpen : (primStop s).busOpen = false := rfl
@[simp] theorem primStop_pullup : (primStop s).pullup = s.pullup := rfl
@[simp] theorem primStop_mode : (primStop s).mode = s.mode := rfl
@[simp] theorem primStop_divValue : (primStop s).divValue = s.divValue := rfl
@[simp] theorem primStop_divSet : (primStop s).divSet = s.divSet := rfl
@[simp] theorem primStop_seq : (primStop s).seq = s.seq := rfl
@[simp] theorem primStop_boundary : (primStop s).boundary = .done .ok := rfl
@[simp] theorem primStop_phase : (primStop s).phase = .stopped := rfl
@[simp] theorem primStop_mem : (primStop s).mem = s.mem := rfl
@[simp] theorem primStop_trace : (primStop s).trace = s.trace ++ [0x200] := rfl
@[simp] theorem primStop_configLog : (primStop s).configLog = s.configLog := rfl
@[simp] theorem primStop_program : (primStop s).program = s.program := rfl
@[simp] theorem primStop_env : (primStop s).env = s.env := rfl
@[simp] theorem primStop_readData : (primStop s).readData = s.readData := rfl

@[simp] theorem badCommand_cfg : (badCommand s).cfg = s.cfg := rfl
@[simp] theorem badCommand_buf : (badCommand s).buf = s.buf := rfl
@[simp] theorem badCommand_len : (badCommand s).len = s.len := rfl
@[simp] theorem badCommand_resFail : (badCommand s).resFail = true := rfl
@[simp] theorem badCommand_resCode : (badCommand s).resCode = errBadCommand := rfl
@[simp] theorem badCommand_lastRaw : (badCommand s).lastRaw = s.lastRaw := rfl
@[simp] theorem badCommand_busy : (badCommand s).busy = false := rfl
@[simp] theorem badCommand_configured : (badCommand s).configured = s.configured := rfl
@[simp] theorem badCommand_busOpen : (badCommand s).busOpen = s.busOpen := rfl
@[simp] theorem badCommand_pullup : (badCommand s).pullup = s.pullup := rfl
@[simp] theorem badCommand_mode : (badCommand s).mode = s.mode := rfl
@[simp] theorem badCommand_divValue : (badCommand s).divValue = s.divValue := rfl
@[simp] theorem badCommand_divSet : (badCommand s).divSet = s.divSet := rfl
@[simp] theorem badCommand_seq : (badCommand s).seq = none := rfl
@[simp] theorem badCommand_boundary : (badCommand s).boundary = s.boundary := rfl
@[simp] theorem badCommand_phase : (badCommand s).phase = s.phase := rfl
@[simp] theorem badCommand_mem : (badCommand s).mem = s.mem := rfl
@[simp] theorem badCommand_trace : (badCommand s).trace = s.trace := rfl
@[simp] theorem badCommand_configLog : (badCommand s).configLog = s.configLog := rfl
@[simp] theorem badCommand_program : (badCommand s).program = s.program := rfl
@[simp] theorem badCommand_env : (badCommand s).env = s.env := rfl
@[simp] theorem badCommand_readData : (badCommand s).readData = s.readData := rfl

@[simp] theorem resetRegisters_cfg : (s.resetRegisters).cfg = s.cfg := rfl
@[simp] theorem resetRegisters_buf : (s.resetRegisters).buf = 0 := rfl
@[simp] theorem resetRegisters_len : (s.resetRegisters).len = 0 := rfl
@[simp] theorem resetRegisters_resFail : (s.resetRegisters).resFail = false := rfl
@[simp] theorem resetRegisters_resCode : (s.resetRegisters).resCode = 0 := rfl
@[simp] theorem resetRegisters_lastRaw : (s.resetRegisters).lastRaw = 0 := rfl
@[simp] theorem resetRegisters_busy : (s.resetRegisters).busy = false := rfl
@[simp] theorem resetRegisters_configured : (s.resetRegisters).configured = false := rfl
@[simp] theorem resetRegisters_busOpen : (s.resetRegisters).busOpen = false := rfl
@[simp] theorem resetRegisters_pullup : (s.resetRegisters).pullup = false := rfl
@[simp] theorem resetRegisters_mode : (s.resetRegisters).mode = 0 := rfl
@[simp] theorem resetRegisters_divValue : (s.resetRegisters).divValue = 0 := rfl
@[simp] theorem resetRegisters_divSet : (s.resetRegisters).divSet = false := rfl
@[simp] theorem resetRegisters_seq : (s.resetRegisters).seq = none := rfl
@[simp] theorem resetRegisters_boundary : (s.resetRegisters).boundary = .free := rfl
@[simp] theorem resetRegisters_phase : (s.resetRegisters).phase = .idle := rfl
@[simp] theorem resetRegisters_mem : (s.resetRegisters).mem = s.mem := rfl
@[simp] theorem resetRegisters_trace : (s.resetRegisters).trace = s.trace := rfl
@[simp] theorem resetRegisters_configLog : (s.resetRegisters).configLog = s.configLog := rfl
@[simp] theorem resetRegisters_program : (s.resetRegisters).program = s.program := rfl
@[simp] theorem resetRegisters_env : (s.resetRegisters).env = s.env := rfl
@[simp] theorem resetRegisters_readData : (s.resetRegisters).readData = s.readData := rfl

end

end Sys2Proof.Machine
end

