-- ==== Sys2Proof/Laws/Window.lean ====
section
/-! SUPPORT. The register window's shape check (R22, R68), and the fields of a word as arithmetic on its value. -/

namespace Sys2Proof.Machine

/-- A 32-bit access at a multiple of 4 inside the window is admitted, at its offset. -/
theorem windowOffset_ok {c : Config} {off : Nat} (h : off < 32) (h4 : off % 4 = 0) :
    windowOffset c (c.base + off) 32 = .ok off := by
  have h1 : ¬(c.base + off < c.base ∨ c.base + 32 ≤ c.base + off) := by omega
  have h2 : c.base + off - c.base = off := by omega
  simp only [windowOffset, if_neg h1, h2]
  rw [if_neg (by omega)]

/-- The CMD register is at the window's base. -/
theorem windowOffset_cmd (c : Config) : windowOffset c c.base 32 = .ok 0 := windowOffset_ok (c := c) (off := 0) (by decide) rfl

theorem toNat_append_add {m n : Nat} (x : BitVec m) (y : BitVec n) : (x ++ y).toNat = x.toNat * 2 ^ n + y.toNat := by
  rw [BitVec.toNat_append, ← Nat.shiftLeft_add_eq_or_of_lt y.isLt, Nat.shiftLeft_eq]

theorem extract_toNat {m : Nat} (w : BitVec m) (a n : Nat) : (w.extractLsb' a n).toNat = w.toNat / 2 ^ a % 2 ^ n := by
  simp [BitVec.extractLsb', Nat.shiftRight_eq_div_pow]

theorem extract_eq_iff {m : Nat} {w : BitVec m} {a n : Nat} {v : BitVec n} :
    w.extractLsb' a n = v ↔ w.toNat / 2 ^ a % 2 ^ n = v.toNat := by
  rw [← extract_toNat]
  exact ⟨fun h => by rw [h], fun h => BitVec.eq_of_toNat_eq h⟩

theorem bit_toNat {m : Nat} (w : BitVec m) (i : Nat) : (w.getLsbD i).toNat = w.toNat / 2 ^ i % 2 := by
  rw [BitVec.getLsbD, Nat.testBit_eq_decide_div_mod_eq]
  rcases Nat.mod_two_eq_zero_or_one (w.toNat / 2 ^ i) with h | h <;> simp [h]

end Sys2Proof.Machine
end

