-- ==== Sys2Proof/Tests/Slice0.lean ====
section
/-! SUPPORT. Tests: words written out from the spec's encodings, the vectors of 95_test_vectors.md as single steps, the
ill-formed terms each check refuses, and a witness for the hypotheses of each statement. Expected values come from the
spec, each test's comment naming the vector or rule. -/

namespace Sys2Proof.Machine.Test

open Sys2Proof Sys2Proof.Machine

/-- The outcome is a next state that passes the test. -/
def nextIs (o : Host.Outcome State Fault Refusal) (f : State → Bool) : Bool :=
  match o with
  | .next t => f t
  | .fault _ => false
  | .refused _ => false

def faultIs (o : Host.Outcome State Fault Refusal) (f : Fault) : Bool :=
  match o with
  | .next _ => false
  | .fault g => g == f
  | .refused _ => false

/-- The start state of vectors T1 to T7: configured, BUF 0x0200, three bytes there. -/
def ready (n : Half) (e : List EnvEvent) : State :=
  { State.reset with
    configured := true, divSet := true, divValue := 72, buf := 0x200, len := n,
    mem := [(0x200, 0x11), (0x201, 0x22), (0x202, 0x33)], env := e }

/-- The start state of vectors V1 to V7. -/
def readyRx (n : Half) (e : List EnvEvent) : State :=
  { State.reset with
    configured := true, divSet := true, divValue := 72, buf := 0x300, len := n,
    mem := [(0x300, 0xEE), (0x301, 0xEE), (0x302, 0xEE)], env := e }

/-- A TRANSMIT in progress that waits on its START, from `ready`. -/
def waitingStart (e : List EnvEvent) : State :=
  { ready 3 e with
    busy := true, boundary := .waiting .start, trace := [0x100],
    seq := some { kind := .transmit, sla := 0x68, keep := false, base := 0x200, len := 3, idx := 0, pc := .start } }

/-! Words written out bit by bit from the encodings (R91 to R95, R100 to R106) -/

/-- RSV_HI 16 zeros, OP 0001, RSV 9 zeros, PU 1, MODE 10. -/
theorem test_decode_init : decodeTableWord 32 0b00000000000000000001000000000110 = some (.init 2 true) := by decide
/-- RSV_HI, OP 0010, RSV 0000, KEEP 1, SLA 1101000. -/
theorem test_decode_transmit : decodeTableWord 32 0b00000000000000000010000011101000 = some (.transmit 0x68 true) := by decide
/-- RSV_HI, OP 0011, RSV 00000, SLA 1010000. -/
theorem test_decode_receive : decodeTableWord 32 0b00000000000000000011000001010000 = some (.receive 0x50) := by decide
/-- UOP 0001, DATA 0. -/
theorem test_decode_start : decodeTableWord 16 0b000100000000 = some .start := by decide
/-- UOP 0010, DATA 0. -/
theorem test_decode_stop : decodeTableWord 16 0b001000000000 = some .stop := by decide
/-- UOP 0011, DATA 11010001: slave 0x68, read (R103). -/
theorem test_decode_waddr : decodeTableWord 16 0b001111010001 = some (.waddr 0xD1) := by decide
/-- UOP 0100, DATA 01101011. -/
theorem test_decode_wbyte : decodeTableWord 16 0b010001101011 = some (.wbyte 0x6B) := by decide
/-- UOP 0101, DATA 0. -/
theorem test_decode_rbyteAck : decodeTableWord 16 0b010100000000 = some .rbyteAck := by decide
/-- UOP 0110, DATA 0. -/
theorem test_decode_rbyteNack : decodeTableWord 16 0b011000000000 = some .rbyteNack := by decide

/-- The INVALID rows of vector table 2.2, each rejected by its own name. -/
theorem test_decode_invalid :
    decodeCommand 0x00001008 = .error .reservedArg ∧ decodeCommand 0x00001803 = .error .reservedArg ∧
    decodeCommand 0x00002168 = .error .reservedArg ∧ decodeCommand 0x000030E8 = .error .reservedArg ∧
    decodeCommand 0x00000000 = .error .unknownOp ∧ decodeCommand 0x00004000 = .error .unknownOp ∧
    decodeCommand 0x0000F000 = .error .unknownOp ∧ decodeCommand 0x00012068 = .error .reservedHigh ∧
    decodeCommand 0x80002068 = .error .reservedHigh ∧ decodeCommand 0xFFFFFFFF = .error .reservedHigh := by decide

/-- R107: words that are no micro-op word. -/
theorem test_decode_no_uop :
    decodeMicro 0x000 = .error .unknownUop ∧ decodeMicro 0x700 = .error .unknownUop ∧
    decodeMicro 0x101 = .error .uopData ∧ decodeMicro 0x6FF = .error .uopData := by decide

/-- Vector table 2.1. -/
theorem test_addr_byte :
    addrByte 0x00 false = 0x00 ∧ addrByte 0x00 true = 0x01 ∧ addrByte 0x7F false = 0xFE ∧ addrByte 0x7F true = 0xFF ∧
    addrByte 0x68 false = 0xD0 ∧ addrByte 0x68 true = 0xD1 ∧ addrByte 0x3C false = 0x78 ∧ addrByte 0x50 false = 0xA0 := by
  decide

/-! The checks of WellFormed.lean refuse ill-formed terms -/

theorem test_admissible_standard : Config.standard.admissible = true := by decide
theorem test_addrW_refused :
    ({ Config.standard with addrW := 33 } : Config).admissible = false ∧
    ({ Config.standard with addrW := 0 } : Config).admissible = false := by decide
theorem test_base_refused : ({ Config.standard with base := 2 } : Config).admissible = false := by decide
/-- Table 2.5: F_CLK = 1 MHz has no default table. -/
theorem test_clock_refused : ({ Config.standard with fClk := 1000000 } : Config).admissible = false := by decide
/-- R11: a table with two equal divisors. -/
theorem test_table_refused :
    ({ Config.standard with divTable := some { d100 := 72, d250 := 12, d400 := 12 } } : Config).admissible = false := by
  decide
/-- R12: MT_SLA_ACK equal to MR_SLA_ACK, and MR_DATA_ACK equal to MR_DATA_NACK. -/
theorem test_codes_refused :
    ({ Config.standard with codes := { StatusCodes.avr with mrSlaAck := 0x18 } } : Config).admissible = false ∧
    ({ Config.standard with codes := { StatusCodes.avr with mrDataNack := 0x50 } } : Config).admissible = false := by decide
theorem test_trace_word_refused :
    isTraceWord 0x000 = false ∧ isTraceWord 0x101 = false ∧ isTraceWord 0x700 = false ∧ isTraceWord 0x3D0 = true := by decide

/-- Table 2.5 and R222: the default tables of 8, 12, 14.7456, 16, 16.1 and 20 MHz. -/
theorem test_default_tables :
    defaultTable 8000000 = some { d100 := 32, d250 := 8, d400 := 2 } ∧
    defaultTable 12000000 = some { d100 := 52, d250 := 16, d400 := 7 } ∧
    defaultTable 14745600 = some { d100 := 66, d250 := 21, d400 := 10 } ∧
    defaultTable 16000000 = some { d100 := 72, d250 := 24, d400 := 12 } ∧
    defaultTable 16100000 = some { d100 := 73, d250 := 24, d400 := 12 } ∧
    defaultTable 20000000 = some { d100 := 92, d250 := 32, d400 := 17 } := by decide

/-- R277: 16 MHz and divisor 72 give 100 kHz. -/
theorem test_nominal_clock : nominalBusClock 16000000 72 = 100000 := by
  have h : (72 : Byte).toNat = 72 := rfl
  rw [nominalBusClock, h]
  norm_num

/-! One step of each instruction -/

/-- Vectors I1 and I6: DIV and STAT as the host reads them. -/
theorem test_init :
    nextIs (exec (.init 0 true) State.reset) (fun t => divWord t == 0x148 && statWord t == 0xA00 && resultWord t == 0) = true ∧
    nextIs (exec (.init 2 false) { State.reset with configured := true, divSet := true, divValue := 72, pullup := true })
      (fun t => divWord t == 0x10C && statWord t == 0x2200) = true := by decide
/-- Vectors I4 and I5. -/
theorem test_init_unrecognized :
    nextIs (exec (.init 3 false) State.reset) (fun t => resultWord t == 0x10100 && divWord t == 0 && statWord t == 0) = true := by
  decide
/-- Vector T4: a repeated START, three bytes, STOP. -/
theorem test_transmit :
    nextIs (exec (.transmit 0x68 false) (ready 3 (answers [(0x10, 0), (0x18, 0), (0x28, 0), (0x28, 0), (0x28, 0)])))
      (fun t => t.trace == [0x100, 0x3D0, 0x411, 0x422, 0x433, 0x200] && resultWord t == 0 && !t.busOpen &&
        t.lastRaw == 0x28 && !t.busy) = true := by decide
/-- Vectors T7 and T11: a NACKed data byte, and a byte the memory refuses. -/
theorem test_transmit_failures :
    nextIs (exec (.transmit 0x68 false) (ready 3 (answers [(0x08, 0), (0x18, 0), (0x28, 0), (0x30, 0)])))
      (fun t => t.trace == [0x100, 0x3D0, 0x411, 0x422] && resultWord t == 0x10030 && t.busOpen && t.lastRaw == 0x30) = true ∧
    nextIs (exec (.transmit 0x68 false)
        { ready 3 (answers [(0x10, 0), (0x18, 0), (0x28, 0), (0x28, 0), (0x28, 0)]) with
          cfg := { Config.standard with memHoles := [{ first := 0x201, last := 0x201, noRead := true, noWrite := false }] } })
      (fun t => t.trace == [0x100, 0x3D0, 0x411] && t.busy && !t.canMove) = true := by decide
/-- Vector V2. -/
theorem test_receive :
    nextIs (exec (.receive 0x68) (readyRx 3 (answers [(0x08, 0), (0x40, 0), (0x50, 1), (0x50, 2), (0x58, 3)])))
      (fun t => t.trace == [0x100, 0x3D1, 0x500, 0x500, 0x600, 0x200] && resultWord t == 0 && !t.busOpen &&
        t.mem == [(0x300, 1), (0x301, 2), (0x302, 3)]) = true := by decide
/-- Vectors V6 and V8: the third read fails, or with LEGACY_READ_DEFECT stores its status. -/
theorem test_receive_unexpected :
    nextIs (exec (.receive 0x68) (readyRx 3 (answers [(0x08, 0), (0x40, 0), (0x50, 1), (0x38, 0)])))
      (fun t => t.trace == [0x100, 0x3D1, 0x500, 0x500, 0x200] && resultWord t == 0x10038 && !t.busOpen &&
        t.mem == [(0x300, 1), (0x301, 0xEE), (0x302, 0xEE)]) = true ∧
    nextIs (exec (.receive 0x68)
        { readyRx 3 (answers [(0x08, 0), (0x40, 0), (0x50, 1), (0x38, 9), (0x58, 3)]) with
          cfg := { Config.standard with legacyRead := true } })
      (fun t => t.trace == [0x100, 0x3D1, 0x500, 0x500, 0x600, 0x200] && resultWord t == 0 &&
        t.mem == [(0x300, 1), (0x301, 0x38), (0x302, 3)]) = true := by decide
/-- Vectors P1 and P3. -/
theorem test_start :
    nextIs (exec .start (ready 0 (answers [(0x08, 0)])))
      (fun t => t.busOpen && t.lastRaw == 0x08 && t.boundary == .done .ok && t.trace == [0x100]) = true ∧
    nextIs (exec .start (ready 0 (answers [(0x38, 0)])))
      (fun t => !t.busOpen && t.lastRaw == 0x38 && t.boundary == .done (.fail 0x38)) = true := by decide
/-- Vector P4. -/
theorem test_stop :
    nextIs (exec .stop { ready 0 [] with busOpen := true, lastRaw := 0x28 })
      (fun t => !t.busOpen && t.lastRaw == 0x28 && t.boundary == .done .ok && t.trace == [0x200]) = true := by decide
/-- Vectors P5 and P6. -/
theorem test_waddr :
    nextIs (exec (.waddr 0xD0) (ready 0 (answers [(0x18, 0)]))) (fun t => t.boundary == .done .ok && t.trace == [0x3D0]) = true ∧
    nextIs (exec (.waddr 0xD1) (ready 0 (answers [(0x18, 0)]))) (fun t => t.boundary == .done (.fail 0x18)) = true := by decide
/-- Vectors P7 and P8. -/
theorem test_wbyte :
    nextIs (exec (.wbyte 0x00) (ready 0 (answers [(0x28, 0)]))) (fun t => t.boundary == .done .ok && t.trace == [0x400]) = true ∧
    nextIs (exec (.wbyte 0xFF) (ready 0 (answers [(0x30, 0)])))
      (fun t => t.boundary == .done (.fail 0x30) && t.trace == [0x4FF]) = true := by decide
/-- Vectors P9, P10 and P11. -/
theorem test_rbyteAck :
    nextIs (exec .rbyteAck (ready 0 (answers [(0x50, 0xA5)]))) (fun t => t.boundary == .done (.okData 0xA5)) = true ∧
    nextIs (exec .rbyteAck (ready 0 (answers [(0x38, 0xA5)]))) (fun t => t.boundary == .done (.fail 0x38)) = true ∧
    nextIs (exec .rbyteAck { ready 0 (answers [(0x38, 0xA5)]) with cfg := { Config.standard with legacyRead := true } })
      (fun t => t.boundary == .done (.okData 0x38)) = true := by decide
/-- Vectors P12 and P13. -/
theorem test_rbyteNack :
    nextIs (exec .rbyteNack (ready 0 (answers [(0x58, 0)])))
      (fun t => t.boundary == .done (.okData 0) && t.trace == [0x600]) = true ∧
    nextIs (exec .rbyteNack (ready 0 (answers [(0x50, 0)]))) (fun t => t.boundary == .done (.fail 0x50)) = true := by decide

/-! The host's accesses, each one step -/

/-- Vectors X2, X4 to X10: the program's only action, on a busy or an idle controller. -/
theorem test_host_accesses :
    faultIs (step { waitingStart [] with program := [.write 8 32 1] }) .hostWriteWhileBusy = true ∧
    nextIs (step { waitingStart [] with program := [.read 16 32] }) (fun t => t.readData.getLsbD 8) = true ∧
    faultIs (step { State.reset with program := [.read 16 16] }) .unsupportedRegisterAccess = true ∧
    faultIs (step { waitingStart [] with program := [.bufRead 0x200] }) .hostBufferRace = true ∧
    nextIs (step { ready 3 [] with program := [.write 16 32 0xFFFFFFFF] }) (fun t => statWord t == 0x200) = true ∧
    nextIs (step { State.reset with program := [.write 4 32 0x12345678] }) (fun t => readRegister t 4 == 0x5678) = true ∧
    nextIs (step { State.reset with program := [.write 8 32 0xFFFF0003] }) (fun t => readRegister t 8 == 3) = true ∧
    nextIs (step { State.reset with program := [.read 0x18 32] }) (fun t => t.readData == 0) = true := by decide

/-- Program 2's reads of STAT (0x00000E28 after its TRANSMIT): every field at its bit. -/
theorem test_stat_word :
    statWord { State.reset with lastRaw := 0x28, configured := true, busOpen := true, pullup := true } = 0xE28 ∧
    statWord { State.reset with busy := true, mode := 2 } = 0x2100 := by decide

/-- R109: what `receive 0x68, 0x0400, 6` writes and reads. -/
theorem test_receive_program :
    receiveProgram Config.standard 0x68 0x400 6 =
      [.write 4 32 0x400, .write 8 32 6, .write 0 32 0x3068, .wait, .read 12 32] := by decide

/-- From reset, the very next step runs the fetched word: an INIT, and each micro-operation on its own. -/
theorem test_withFetchWord :
    nextIs (step (State.reset.withFetchWord 32 0x1004)) (fun t => t.configured && t.divValue == 72) = true ∧
    nextIs (step (State.reset.withFetchWord 32 0x2068)) (fun t => resultWord t == 0x10102) = true ∧
    ([0x100, 0x200, 0x3D0, 0x3D1, 0x46B, 0x500, 0x600].all fun w =>
      nextIs (step (State.reset.withFetchWord 16 w)) (fun t => t.trace == [BitVec.ofNat 12 w])) = true := by decide

/-! Witnesses: for each statement with hypotheses, a state and operands that meet all of them together -/

/-- A RECEIVE in progress, from `readyRx`, at its byte `idx` and step pc, with BUF at b. -/
def receiving (b : Word) (idx : Half) (pc : SeqStep) (e : List EnvEvent) : State :=
  { readyRx 3 e with
    buf := b, busy := true, busOpen := true, phase := .reading, trace := [0x100, 0x3D1, 0x500],
    seq := some { kind := .receive, sla := 0x68, keep := false, base := b, len := 3, idx := idx, pc := pc } }

/-- A memory that refuses reads of 0x201 and writes of 0x301. -/
def holed : Config :=
  { Config.standard with
    memHoles := [{ first := 0x201, last := 0x201, noRead := true, noWrite := false },
      { first := 0x301, last := 0x301, noRead := false, noWrite := true }] }

theorem witness_EncodeOfDecode :
    decodeCommand 0x00003000 = .ok (.receive 0) ∧ decodeCommand 0x000020FF = .ok (.transmit 0x7F true) ∧
    decodeMicro 0x4FF = .ok (.wbyte 0xFF) ∧ decodeMicro 0x300 = .ok (.waddr 0) := by decide

theorem witness_TraceWordsAreEncodings : isTraceWord 0x300 = true ∧ isTraceWord 0x4FF = true := by decide

/-- A command in progress, and an idle controller. -/
theorem witness_ResetAbandonsCommand :
    let s := { waitingStart [] with program := [.reset, .wait] }
    let z := { ready 3 [] with program := [.reset] }
    (s.cfg.admissible = true ∧ s.canMove = false ∧ s.program = .reset :: [.wait] ∧ s.busy = true) ∧
    (z.cfg.admissible = true ∧ z.canMove = false ∧ z.program = .reset :: [] ∧ z.busy = false) := by decide

/-- The reset state, as the last clause of each hypothesis asks it. -/
theorem witness_idle : State.reset.Idle := ⟨rfl, rfl, rfl⟩

theorem witness_ready_idle (n : Half) (e : List EnvEvent) : (ready n e).Idle := ⟨rfl, rfl, rfl⟩

theorem witness_readyRx_idle (n : Half) (e : List EnvEvent) : (readyRx n e).Idle := ⟨rfl, rfl, rfl⟩

/-- A controller that waits on its START meets the invariant. -/
theorem witness_inv_waiting (e : List EnvEvent) : (waitingStart e).Inv where
  admissible := by show Config.standard.admissible = true; decide
  memWf := by show Memory.wf [(0x200, 0x11), (0x201, 0x22), (0x202, 0x33)]; decide
  memRange := by
    show ∀ c ∈ ([(0x200, 0x11), (0x201, 0x22), (0x202, 0x33)] : Memory), c.1 < 2 ^ 16
    decide
  bufReserved := by show (0x200 : Word).toNat < 2 ^ 16; decide
  modeLegal := by show (0 : ModeBits) ≠ 3; decide
  successCode := fun _ => rfl
  failureCode := by show (0 : Half).toNat < 0x104; decide
  setTogether := rfl
  divisor := fun _ => ⟨{ d100 := 72, d250 := 24, d400 := 12 }, by show Config.standard.table = _; decide, rfl⟩
  traceLegal := by show ∀ u ∈ ([0x100] : List UopWord), isTraceWord u = true; decide
  busyPosition := rfl
  openPhase := rfl
  position := ⟨rfl, by decide, by show 0x200 < 2 ^ 16; decide, by decide, ⟨rfl, rfl⟩, Or.inr ⟨.start, rfl, rfl, by decide⟩⟩

theorem witness_StepKeepsInvariant :
    ∃ t, (waitingStart [.answer 0x08 0]).Inv ∧ step (waitingStart [.answer 0x08 0]) = .next t :=
  ⟨_, witness_inv_waiting _, rfl⟩

/-- Each recognized mode, with its entry of the 16 MHz table (R222). -/
theorem witness_InitConfigures :
    State.reset.Idle ∧ Config.standard.table = some { d100 := 72, d250 := 24, d400 := 12 } ∧
    ([(0, 72), (1, 24), (2, 12)] : List (ModeBits × Byte)).all (fun m =>
      m.1 != 3 && ({ d100 := 72, d250 := 24, d400 := 12 } : DivTable).entry m.1 == some m.2) = true :=
  ⟨witness_idle, by decide, by decide⟩

/-- The first and the last recognized mode, the default table, and a table that is passed. -/
theorem witness_AdmissibleTableCoversModes :
    let t : DivTable := { d100 := 5, d250 := 6, d400 := 7 }
    Config.standard.admissible = true ∧ (0 : ModeBits) ≠ 3 ∧ (2 : ModeBits) ≠ 3 ∧
    Config.standard.divTable = none ∧ Config.standard.table = some { d100 := 72, d250 := 24, d400 := 12 } ∧
    targetFreq 0 = some 100000 ∧ targetFreq 2 = some 400000 ∧
    ({ Config.standard with divTable := some t } : Config).divTable = some t := by decide

/-- The ends of the range of 100 kHz (16 f and 526 f), and one past each. -/
theorem witness_DefaultDivisorRounds :
    defaultDivisor 1600000 100000 = some 0 ∧ defaultDivisor 52600000 100000 = some 255 ∧
    defaultDivisor 1599999 100000 = none ∧ defaultDivisor 52600001 100000 = none := by decide

theorem witness_InitUnrecognizedModeFails : State.reset.Idle := witness_idle

theorem witness_InvalidWordFails :
    let s := { State.reset with program := [.write 0 32 0x00001008] }
    s.Idle ∧ s.cfg.admissible = true ∧ s.program = .write s.cfg.base 32 0x00001008 :: [] ∧
      ∀ i, decodeCommand 0x00001008 ≠ .ok i :=
  ⟨⟨rfl, rfl, rfl⟩, by decide, by decide, fun _ h => by
    have e : decodeCommand 0x00001008 = .error .reservedArg := by decide
    rw [e] at h
    cases h⟩

theorem witness_TransferBeforeInitFails : State.reset.Idle ∧ State.reset.configured = false := ⟨witness_idle, rfl⟩

theorem witness_ReceiveLengthZeroFails :
    (readyRx 0 []).Idle ∧ (readyRx 0 []).configured = true ∧ (readyRx 0 []).len = 0 := ⟨witness_readyRx_idle 0 [], rfl, rfl⟩

theorem witness_CommandWhileBusyFaults :
    (waitingStart []).busy = true ∧ (Instr.init 0 false).isCommand = true ∧ (Instr.transmit 0 false).isCommand = true ∧
    (Instr.receive 0).isCommand = true := by decide

theorem witness_TranslatorOutcome :
    translateStatus .avr .start 0x08 = .ok ∧ translateStatus .avr .rbyteNack 0x50 ≠ .ok := by decide

theorem witness_DefaultCodesOutcomeTable : translateStatus .avr .wbyte 0x30 ≠ .ok := by decide

theorem witness_ExpectedCodesDiffer : Config.standard.admissible = true := by decide

theorem witness_RawCodesAreNotSynthetic : errConfig ∈ [errConfig, errLength, errNotConfigured, errBadCommand] := by decide

/-- Both expected codes of START, and the least code that is neither. -/
theorem witness_StartPrimitive :
    let c := StatusCodes.avr
    (ready 0 [.answer 0x08 0]).env = .answer 0x08 0 :: [] ∧ (0x08 = c.start ∨ 0x08 = c.repStart) ∧
    (0x10 = c.start ∨ 0x10 = c.repStart) ∧ 0x00 ≠ c.start ∧ 0x00 ≠ c.repStart ∧ (ready 0 []).cfg.codes = c := by decide

/-- The expected code of each direction, and the other direction's code as the failure. -/
theorem witness_WaddrPrimitive :
    let c := (ready 0 []).cfg.codes
    let e := fun b : Byte => if b.getLsbD 0 then c.mrSlaAck else c.mtSlaAck
    (ready 0 [.answer 0x18 0]).env = .answer 0x18 0 :: [] ∧ 0x18 = e 0xD0 ∧ 0x40 = e 0xD1 ∧ 0x40 ≠ e 0xD0 ∧ 0x18 ≠ e 0xD1 := by
  decide

theorem witness_WbytePrimitive :
    (ready 0 [.answer 0x28 0]).env = .answer 0x28 0 :: [] ∧ 0x28 = (ready 0 []).cfg.codes.mtDataAck ∧
    0x30 ≠ (ready 0 []).cfg.codes.mtDataAck := by decide

/-- Success, failure and the legacy read, each with a status that meets its clause. -/
theorem witness_RbyteAckPrimitive :
    let l := { ready 0 [.answer 0x58 7] with cfg := { Config.standard with legacyRead := true } }
    (ready 0 [.answer 0x50 7]).env = .answer 0x50 7 :: [] ∧ 0x50 = (ready 0 []).cfg.codes.mrDataAck ∧
    0x58 ≠ (ready 0 []).cfg.codes.mrDataAck ∧ (ready 0 []).cfg.legacyRead = false ∧
    l.env = .answer 0x58 7 :: [] ∧ 0x58 ≠ l.cfg.codes.mrDataAck ∧ l.cfg.legacyRead = true := by decide

theorem witness_RbyteNackPrimitive :
    let l := { ready 0 [.answer 0x50 7] with cfg := { Config.standard with legacyRead := true } }
    (ready 0 [.answer 0x58 7]).env = .answer 0x58 7 :: [] ∧ 0x58 = (ready 0 []).cfg.codes.mrDataNack ∧
    0x50 ≠ (ready 0 []).cfg.codes.mrDataNack ∧ (ready 0 []).cfg.legacyRead = false ∧
    l.env = .answer 0x50 7 :: [] ∧ 0x50 ≠ l.cfg.codes.mrDataNack ∧ l.cfg.legacyRead = true := by decide

theorem witness_UnansweredPrimitiveWaits :
    (MicroOp.wbyte 0 ≠ .stop) ∧ (∀ st d rest, (ready 0 []).env ≠ .answer st d :: rest) ∧
    ∀ st d rest, (ready 0 [.late]).env ≠ .answer st d :: rest :=
  ⟨by decide, fun _ _ _ h => (nomatch h), fun _ _ _ h => (nomatch h)⟩

/-- Three bytes, and none (the least length). -/
theorem witness_TransmitSucceeds :
    let s := ready 3 (answers [(0x10, 0), (0x18, 0), (0x28, 1), (0x28, 2), (0x28, 3)])
    let z := ready 0 (answers [(0x08, 0), (0x18, 0)])
    (s.Idle ∧ s.configured = true ∧ (0x10 = s.cfg.codes.start ∨ 0x10 = s.cfg.codes.repStart) ∧
      ([1, 2, 3] : List Byte).length = s.len.toNat ∧
      (∀ i < s.len.toNat, memOkRead s.cfg (bufAddr s.cfg s.buf i) = true) ∧ ([] : List EnvEvent).head? ≠ some .hold ∧
      s.env = answers ((0x10, 0) :: (s.cfg.codes.mtSlaAck, 0) :: ([1, 2, 3] : List Byte).map fun d =>
        (s.cfg.codes.mtDataAck, d)) ++ []) ∧
    (z.Idle ∧ z.configured = true ∧ ([] : List Byte).length = z.len.toNat ∧
      (∀ i < z.len.toNat, memOkRead z.cfg (bufAddr z.cfg z.buf i) = true) ∧
      z.env = answers ((0x08, 0) :: (z.cfg.codes.mtSlaAck, 0) :: ([] : List Byte).map fun d =>
        (z.cfg.codes.mtDataAck, d)) ++ []) :=
  ⟨⟨witness_ready_idle _ _, rfl, by decide, rfl, fun _ _ => rfl, by decide, rfl⟩,
    ⟨witness_ready_idle _ _, rfl, rfl, fun _ _ => rfl, rfl⟩⟩

/-- The first byte fails, and the last. -/
theorem witness_TransmitDataFailure :
    let s := ready 3 (answers [(0x08, 0), (0x18, 0), (0x30, 0)])
    let z := ready 3 (answers [(0x08, 0), (0x18, 0), (0x28, 1), (0x28, 2), (0x30, 0)])
    (s.Idle ∧ s.configured = true ∧ (0x08 = s.cfg.codes.start ∨ 0x08 = s.cfg.codes.repStart) ∧
      ([] : List Byte).length < s.len.toNat ∧ 0x30 ≠ s.cfg.codes.mtDataAck ∧
      (∀ i ≤ ([] : List Byte).length, memOkRead s.cfg (bufAddr s.cfg s.buf i) = true) ∧
      s.env = answers ((0x08, 0) :: (s.cfg.codes.mtSlaAck, 0) :: (([] : List Byte).map fun d =>
        (s.cfg.codes.mtDataAck, d)) ++ [(0x30, 0)]) ++ []) ∧
    (z.Idle ∧ z.configured = true ∧ ([1, 2] : List Byte).length < z.len.toNat ∧
      (∀ i ≤ ([1, 2] : List Byte).length, memOkRead z.cfg (bufAddr z.cfg z.buf i) = true) ∧
      z.env = answers ((0x08, 0) :: (z.cfg.codes.mtSlaAck, 0) :: (([1, 2] : List Byte).map fun d =>
        (z.cfg.codes.mtDataAck, d)) ++ [(0x30, 0)]) ++ []) :=
  ⟨⟨witness_ready_idle _ _, rfl, by decide, by decide, by decide, fun _ _ => rfl, rfl⟩,
    ⟨witness_ready_idle _ _, rfl, by decide, fun _ _ => rfl, rfl⟩⟩

theorem witness_StartFailureEndsCommand :
    let s := readyRx 1 [.answer 0x38 0]
    s.Idle ∧ s.configured = true ∧ s.phase.resting = true ∧
    ((∃ sla keep, Instr.receive 0x68 = .transmit sla keep) ∨ (∃ sla, Instr.receive 0x68 = .receive sla ∧ s.len ≠ 0)) ∧
    ((∃ sla keep, Instr.transmit 0x68 true = .transmit sla keep) ∨
      (∃ sla, Instr.transmit 0x68 true = .receive sla ∧ s.len ≠ 0)) ∧
    0x38 ≠ s.cfg.codes.start ∧ 0x38 ≠ s.cfg.codes.repStart ∧ s.env = .answer 0x38 0 :: [] :=
  ⟨witness_readyRx_idle _ _, rfl, rfl, Or.inr ⟨_, rfl, by decide⟩, Or.inl ⟨_, _, rfl⟩, by decide, by decide, rfl⟩

/-- The other direction's ACK is the failure, for each command. -/
theorem witness_AddressFailureEndsCommand :
    let s := ready 1 [.answer 0x08 0, .answer 0x40 0]
    let r := readyRx 1 [.answer 0x08 0, .answer 0x18 0]
    (s.Idle ∧ s.configured = true ∧ (0x08 = s.cfg.codes.start ∨ 0x08 = s.cfg.codes.repStart) ∧
      s.env = .answer 0x08 0 :: .answer 0x40 0 :: [] ∧ 0x40 ≠ s.cfg.codes.mtSlaAck) ∧
    (r.Idle ∧ r.configured = true ∧ (0x08 = r.cfg.codes.start ∨ 0x08 = r.cfg.codes.repStart) ∧
      r.env = .answer 0x08 0 :: .answer 0x18 0 :: [] ∧ 0x18 ≠ r.cfg.codes.mrSlaAck ∧ r.len ≠ 0) :=
  ⟨⟨witness_ready_idle _ _, rfl, by decide, rfl, by decide⟩,
    ⟨witness_readyRx_idle _ _, rfl, by decide, rfl, by decide, by decide⟩⟩

theorem witness_TransmitTraceIsInitialPart :
    ∃ t, (ready 3 [.answer 0x08 0]).Idle ∧ (ready 3 [.answer 0x08 0]).configured = true ∧
      exec (.transmit 0x68 false) (ready 3 [.answer 0x08 0]) = .next t := ⟨_, witness_ready_idle _ _, rfl, rfl⟩

/-- The clauses on an ended command: a TRANSMIT with keep = 0 that ends with Success, having sent all of the trace, and one
that ends with a failure. -/
theorem witness_TransmitTraceIsInitialPart_ended :
    let s := ready 3 (answers [(0x08, 0), (0x18, 0), (0x28, 0), (0x28, 0), (0x28, 0)])
    let z := ready 3 (answers [(0x08, 0), (0x18, 0), (0x30, 0)])
    (s.Idle ∧ s.configured = true ∧ nextIs (exec (.transmit 0x68 false) s) (fun t => !t.busy && !t.resFail &&
      t.trace == s.trace ++ transmitTrace s.cfg s.buf s.mem s.len.toNat 0x68 false) = true) ∧
    (z.Idle ∧ z.configured = true ∧ nextIs (exec (.transmit 0x68 false) z) (fun t => !t.busy && t.resFail) = true) :=
  ⟨⟨witness_ready_idle _ _, rfl, by decide⟩, ⟨witness_ready_idle _ _, rfl, by decide⟩⟩

/-- Two bytes, with LEGACY_READ_DEFECT false, and with it true and the first status unexpected. -/
theorem witness_ReceiveSucceeds :
    let s := readyRx 2 (answers [(0x08, 0), (0x40, 0), (0x50, 5), (0x58, 6)])
    let l := { readyRx 1 (answers [(0x08, 0), (0x40, 0), (0x38, 5)]) with cfg := { Config.standard with legacyRead := true } }
    (s.Idle ∧ s.configured = true ∧ s.mem.wf ∧ s.len ≠ 0 ∧
      (0x08 = s.cfg.codes.start ∨ 0x08 = s.cfg.codes.repStart) ∧
      readOutcome s.cfg .rbyteAck 0x50 5 = .okData 5 ∧ readOutcome s.cfg .rbyteNack 0x58 6 = .okData 6 ∧
      (∀ i < s.len.toNat, memOkWrite s.cfg (bufAddr s.cfg s.buf i) = true) ∧
      s.env = answers ((0x08, 0) :: (s.cfg.codes.mrSlaAck, 0) :: [(0x50, 5), (0x58, 6)]) ++ []) ∧
    (l.Idle ∧ l.configured = true ∧ l.mem.wf ∧ l.len ≠ 0 ∧ readOutcome l.cfg .rbyteNack 0x38 5 = .okData 0x38 ∧
      l.env = answers ((0x08, 0) :: (l.cfg.codes.mrSlaAck, 0) :: [(0x38, 5)]) ++ []) :=
  ⟨⟨witness_readyRx_idle _ _, rfl, by decide, by decide, by decide, by decide, by decide, fun _ _ => rfl, rfl⟩,
    ⟨⟨rfl, rfl, rfl⟩, rfl, by decide, by decide, by decide, rfl⟩⟩

/-- A buffer of five slots in a memory of four bytes: slot 0 is overwritten by slot 4, slot 1 is not (R62). -/
theorem witness_ReceiveSucceeds_slots :
    let c := { Config.standard with addrW := 2 }
    bufAddr c 3 4 = bufAddr c 3 0 ∧ ∀ j < 5, 1 < j → bufAddr c 3 j ≠ bufAddr c 3 1 := by decide

/-- The hypothesis of `ReceiveSucceeds` on each read, whole. -/
theorem witness_ReceiveSucceeds_reads :
    ∀ i (_ : i < ([(0x50, 5), (0x58, 6)] : List (Byte × Byte)).length) (hg : i < ([5, 6] : List Byte).length),
      readOutcome Config.standard (if i + 1 < 2 then .rbyteAck else .rbyteNack) ([(0x50, 5), (0x58, 6)] : List (Byte × Byte))[i].1
        ([(0x50, 5), (0x58, 6)] : List (Byte × Byte))[i].2 = .okData ([5, 6] : List Byte)[i] := by
  intro i hr hg
  match i, hr, hg with
  | 0, _, _ => rfl
  | 1, _, _ => rfl

/-- The first read fails, and the last, whose expected code is the NACK's. -/
theorem witness_ReceiveReadFailure :
    let s := readyRx 2 (answers [(0x08, 0), (0x40, 0), (0x58, 0)])
    let z := readyRx 2 (answers [(0x08, 0), (0x40, 0), (0x50, 5), (0x50, 0)])
    (s.Idle ∧ s.configured = true ∧ s.mem.wf ∧ s.cfg.legacyRead = false ∧ ([] : List Byte).length < s.len.toNat ∧
      (0x08 = s.cfg.codes.start ∨ 0x08 = s.cfg.codes.repStart) ∧
      0x58 ≠ (if ([] : List Byte).length + 1 < s.len.toNat then s.cfg.codes.mrDataAck else s.cfg.codes.mrDataNack) ∧
      ([] : List EnvEvent).head? ≠ some .hold ∧
      s.env = answers ((0x08, 0) :: (s.cfg.codes.mrSlaAck, 0) :: (([] : List Byte).map fun d =>
        (s.cfg.codes.mrDataAck, d)) ++ [(0x58, 0)]) ++ []) ∧
    (z.Idle ∧ z.configured = true ∧ z.mem.wf ∧ z.cfg.legacyRead = false ∧ ([5] : List Byte).length < z.len.toNat ∧
      0x50 ≠ (if ([5] : List Byte).length + 1 < z.len.toNat then z.cfg.codes.mrDataAck else z.cfg.codes.mrDataNack) ∧
      (∀ i < ([5] : List Byte).length, memOkWrite z.cfg (bufAddr z.cfg z.buf i) = true) ∧
      z.env = answers ((0x08, 0) :: (z.cfg.codes.mrSlaAck, 0) :: (([5] : List Byte).map fun d =>
        (z.cfg.codes.mrDataAck, d)) ++ [(0x50, 0)]) ++ []) :=
  ⟨⟨witness_readyRx_idle _ _, rfl, by decide, rfl, by decide, by decide, by decide, by decide, rfl⟩,
    ⟨witness_readyRx_idle _ _, rfl, by decide, rfl, by decide, by decide, fun _ _ => rfl, rfl⟩⟩

theorem witness_ReceiveTraceIsInitialPart :
    let s := readyRx 3 [.answer 0x08 0, .answer 0x40 0, .answer 0x50 9]
    ∃ t, s.Idle ∧ s.configured = true ∧ s.len ≠ 0 ∧ s.mem.wf ∧ exec (.receive 0x68) s = .next t :=
  ⟨_, witness_readyRx_idle _ _, rfl, by decide, by decide, rfl⟩

/-- The clause on Success, at the least length; and a first read that fails, whose trace has k = 1. -/
theorem witness_ReceiveTraceIsInitialPart_ended :
    let s := readyRx 1 (answers [(0x08, 0), (0x40, 0), (0x58, 9)])
    let z := readyRx 2 (answers [(0x08, 0), (0x40, 0), (0x38, 0)])
    (s.Idle ∧ s.configured = true ∧ s.len ≠ 0 ∧ nextIs (exec (.receive 0x68) s) (fun t => !t.busy && !t.resFail &&
      t.trace == s.trace ++ receiveTrace 1 0x68 1) = true) ∧
    (z.Idle ∧ z.configured = true ∧ z.len ≠ 0 ∧ nextIs (exec (.receive 0x68) z) (fun t => !t.busy && t.resFail &&
      t.trace == z.trace ++ receiveTrace 2 0x68 1) = true) :=
  ⟨⟨witness_readyRx_idle _ _, rfl, by decide, by decide⟩, ⟨witness_readyRx_idle _ _, rfl, by decide, by decide⟩⟩

theorem witness_ReceiveWritesOnlyItsSlots :
    let s := readyRx 3 [.answer 0x08 0, .answer 0x40 0, .answer 0x50 9]
    ∃ t, s.Idle ∧ s.mem.wf ∧ exec (.receive 0x68) s = .next t := ⟨_, witness_readyRx_idle _ _, by decide, rfl⟩

theorem witness_CommandEndsOrWaits :
    (readyRx 3 []).Idle ∧ (readyRx 3 []).cfg.admissible = true ∧ (Instr.receive 0x68).isCommand = true :=
  ⟨witness_readyRx_idle _ _, by decide, rfl⟩

/-- The least number of answers for three bytes. -/
theorem witness_AnsweredCommandEnds :
    let s := ready 3 (answers [(0x08, 0), (0x18, 0), (0x28, 0), (0x28, 0), (0x28, 0)])
    s.Idle ∧ s.cfg.admissible = true ∧ (Instr.transmit 0x68 true).isCommand = true ∧ allAnswers s.env = true ∧
      s.len.toNat + 2 ≤ s.env.length ∧
      (∀ k < s.len.toNat, memOkRead s.cfg (bufAddr s.cfg s.buf k) = true ∧ memOkWrite s.cfg (bufAddr s.cfg s.buf k) = true) :=
  ⟨witness_ready_idle _ _, by decide, rfl, rfl, by decide, fun _ _ => ⟨rfl, rfl⟩⟩

/-- R278: a run is over once no command is in progress and the host has no access left. -/
theorem test_run_ended :
    State.reset.runEnded = true ∧ (waitingStart []).runEnded = false ∧
    { State.reset with program := [.wait] }.runEnded = false := by decide

theorem witness_CommandEqualsItsSteps :
    (readyRx 3 []).Idle ∧ (readyRx 3 []).cfg.admissible = true ∧ (readyRx 3 []).configured = true ∧ (readyRx 3 []).len ≠ 0 :=
  ⟨witness_readyRx_idle _ _, by decide, rfl, by decide⟩

theorem witness_StepRunsCommand :
    let s := { ready 3 [] with program := [.write 0 32 0x00002068, .wait] }
    s.Idle ∧ s.cfg.admissible = true ∧ s.program = .write s.cfg.base 32 0x00002068 :: [.wait] ∧
      decodeCommand 0x00002068 = .ok (.transmit 0x68 false) := ⟨⟨rfl, rfl, rfl⟩, by decide, by decide, by decide⟩

theorem witness_StepRunsMicroOp :
    let s := receiving 0x300 2 .rbyte []
    s.cfg.admissible = true ∧ s.boundary = .free ∧ (s.seq.bind SeqPos.uop) = some .rbyteNack ∧ s.seq.isSome = true ∧
      ∀ rest, s.env ≠ .hold :: rest :=
  ⟨by decide, rfl, by decide, rfl, fun _ h => (nomatch h)⟩

theorem witness_LateAnswerCompletesThePhase :
    let s := receiving 0x300 1 .rbyte []
    ∃ w t, s.cfg.admissible = true ∧ s.seq.isSome = true ∧ MicroOp.rbyteAck ≠ .stop ∧
      (∀ st d rest, s.env ≠ .answer st d :: rest) ∧ exec MicroOp.rbyteAck.toInstr s = .next w ∧
      exec MicroOp.rbyteAck.toInstr { s with env := .answer 0x50 7 :: [] } = .next t :=
  ⟨_, _, by decide, rfl, by decide, fun _ _ _ h => (nomatch h), rfl, rfl⟩

/-- No action, a `wait`, and a read of the window's first and last register. -/
theorem witness_UnansweredCommandHangs :
    let s := waitingStart []
    s.cfg.admissible = true ∧ s.busy = true ∧ s.seq.isSome = true ∧ s.boundary = .waiting .start ∧ s.env = [] ∧
      s.program = [] ∧ { s with program := [.wait] }.program = .wait :: [] ∧
      (∀ addr ∈ [0, 28], s.cfg.base ≤ addr ∧ addr < s.cfg.base + 32 ∧ (addr - s.cfg.base) % 4 = 0) := by decide

/-- A refused read and a refused write. -/
theorem witness_RefusedAccessSticks :
    let p : SeqPos := { kind := .transmit, sla := 0x68, keep := false, base := 0x200, len := 3, idx := 1, pc := .load }
    let q : SeqPos := { kind := .receive, sla := 0x68, keep := false, base := 0x300, len := 3, idx := 1, pc := .store 5 }
    let s := { waitingStart [] with cfg := holed, boundary := .free, seq := some p }
    let z := { waitingStart [] with cfg := holed, boundary := .free, seq := some q }
    (s.cfg.admissible = true ∧ s.busy = true ∧ s.seq = some p ∧ s.boundary = .free ∧ p.pc = .load ∧
      memOkRead s.cfg (p.addr s.cfg) = false ∧ s.program = []) ∧
    (z.cfg.admissible = true ∧ z.busy = true ∧ z.seq = some q ∧ z.boundary = .free ∧ q.pc = .store 5 ∧
      memOkWrite z.cfg (q.addr z.cfg) = false ∧ z.program = []) := by decide

theorem witness_ConfiguredUntilReset :
    ∃ t, step (waitingStart [.answer 0x08 0]) = .next t ∧ (waitingStart [.answer 0x08 0]).configured = true ∧
      ∀ rest, (waitingStart [.answer 0x08 0]).program ≠ .reset :: rest :=
  ⟨_, rfl, rfl, fun _ h => (nomatch h)⟩

theorem witness_ResultChangesOnlyAtTheEnd :
    ∃ t, (waitingStart [.answer 0x08 0]).Inv ∧ step (waitingStart [.answer 0x08 0]) = .next t ∧ t.busy = true :=
  ⟨_, witness_inv_waiting _, rfl, by decide⟩

theorem witness_TraceOnlyGrows : ∃ t, step (receiving 0x300 2 .rbyte [.answer 0x58 1]) = .next t := ⟨_, rfl⟩

/-- The first and the last offset of the window. -/
theorem witness_HostWriteWhileBusyFaults :
    ∀ addr ∈ [0, 28],
      let s := { waitingStart [] with program := [.write addr 32 1] }
      s.cfg.admissible = true ∧ s.busy = true ∧ s.canMove = false ∧ s.program = .write addr 32 1 :: [] ∧
        s.cfg.base ≤ addr ∧ addr < s.cfg.base + 32 ∧ (addr - s.cfg.base) % 4 = 0 := by decide

/-- A narrow access at the window's start, and a misaligned one at its end. -/
theorem witness_UnsupportedAccessFaults :
    ∀ x ∈ [(0, 8), (28, 64), (1, 32), (31, 32)],
      (ready 0 []).cfg.base ≤ x.1 ∧ x.1 < (ready 0 []).cfg.base + 32 ∧
        (x.2 ≠ 32 ∨ (x.1 - (ready 0 []).cfg.base) % 4 ≠ 0) := by decide

/-- The addresses next to the window, on either side. -/
theorem witness_UnsupportedAccessFaults_outside :
    let c := { Config.standard with base := 4 }
    ∀ addr ∈ [3, 36], addr < c.base ∨ c.base + 32 ≤ addr := by decide

/-- A buffer of three bytes that wraps past the top: its first, last and wrapped byte, and the bytes on either side. -/
theorem witness_BufferRaceFaults :
    let p : SeqPos := { kind := .receive, sla := 0x68, keep := false, base := 0xFFFF, len := 3, idx := 1, pc := .rbyte }
    let s := receiving 0xFFFF 1 .rbyte []
    s.busy = true ∧ s.seq = some p ∧ p.kind ≠ .init ∧
    (∀ a ∈ [0xFFFF, 0, 1], a < 2 ^ s.cfg.addrW ∧ ∃ i < p.len.toNat, a = bufAddr s.cfg p.base i) ∧
    (∀ a ∈ [0xFFFE, 2], a < 2 ^ s.cfg.addrW ∧ ∀ i < p.len.toNat, a ≠ bufAddr s.cfg p.base i) := by
  refine ⟨rfl, rfl, by decide, by decide, by decide⟩

/-- The first address that does not exist; and with no command in progress, the last one that does. -/
theorem witness_BufferRaceFaults_idle :
    2 ^ (ready 0 []).cfg.addrW ≤ 0x10000 ∧ (ready 0 []).busy = false ∧ 0xFFFF < 2 ^ (ready 0 []).cfg.addrW := by decide

/-- The first and the last register, and the greatest BUF of the default width with its first reserved bit. -/
theorem witness_RegisterReads :
    let s := { State.reset with buf := 0xFFFF }
    0x1C < 32 ∧ 0x1C % 4 = 0 ∧ 0 < 32 ∧ 0 % 4 = 0 ∧ s.buf.toNat < 2 ^ s.cfg.addrW ∧ s.cfg.addrW ≤ 16 := by decide

/-- The default width, and the widest (boundary) one. -/
theorem witness_RegisterWrites :
    (ready 0 []).busy = false ∧ (ready 0 []).cfg.addrW ≤ 32 ∧
    ({ ready 0 [] with cfg := { Config.standard with addrW := 32 } } : State).cfg.addrW ≤ 32 := by decide

/-- Each clause on a step: parameters that are refused, a controller that can move, one that cannot with no action to come, and
one that cannot with an action (in an access the memory refuses, behind a `hold`, and idle). -/
theorem witness_StepIsOneTurn :
    ({ Config.standard with base := 2 } : Config).admissible = false ∧
    (waitingStart [.answer 0x08 0]).cfg.admissible = true ∧ (waitingStart [.answer 0x08 0]).canMove = true ∧
    (waitingStart [.late]).canMove = false ∧ (waitingStart [.late]).program = [] ∧
    (receiving 0x300 1 .rbyte [.hold]).canMove = false ∧ (ready 3 []).canMove = false ∧
    ({ receiving 0x300 1 (.store 5) [] with cfg := holed } : State).canMove = false ∧
    { ready 3 [] with program := [.wait] }.program = .wait :: [] := by decide

/-- A byte below, a listed byte, and 0 over a listed byte. -/
theorem witness_MemoryReadAfterWrite : Memory.wf [(1, 5)] ∧ (0 : Nat) ≠ 1 := by decide

theorem witness_CanonicalMemoriesAreEqual :
    Memory.wf [(1, 5), (2, 6)] ∧ ∀ a, Memory.get [(1, 5), (2, 6)] a = Memory.get [(1, 5), (2, 6)] a :=
  ⟨by decide, fun _ => rfl⟩

end Sys2Proof.Machine.Test
end

section
/-! PROOFS. The parameters (00_scope.md): what admissibility gives, the divisor table by mode (R11, R222), and the status
codes that are told apart (R12). -/

namespace Sys2Proof

/-! Admissible parameters -/

theorem DivTable.distinct_iff {t : DivTable} :
    t.distinct = true ↔ t.d100 ≠ t.d250 ∧ t.d100 ≠ t.d400 ∧ t.d250 ≠ t.d400 := by
  simp [DivTable.distinct, and_assoc]

theorem StatusCodes.distinct_iff {c : StatusCodes} :
    c.distinct = true ↔ c.mtSlaAck ≠ c.mrSlaAck ∧ c.mrDataAck ≠ c.mrDataNack := by
  simp [StatusCodes.distinct]

theorem Config.tableOk_iff {c : Config} : c.tableOk = true ↔ ∃ t, c.table = some t ∧ t.distinct = true := by
  unfold Config.tableOk
  cases c.table <;> simp

/-- Admissibility, check by check (R11, R12, R24, R71, R223). -/
theorem Config.admissible_iff {c : Config} :
    c.admissible = true ↔
      (1 ≤ c.addrW ∧ c.addrW ≤ 32) ∧ c.base % 4 = 0 ∧ (∃ t, c.table = some t ∧ t.distinct = true) ∧
        c.codes.distinct = true := by
  simp [Config.admissible, Config.addrWOk, Config.baseOk, Config.tableOk_iff, and_assoc]

/-! The divisor table by mode -/

theorem ModeBits.eq_cases (m : ModeBits) : m = 0 ∨ m = 1 ∨ m = 2 ∨ m = 3 := by
  revert m; decide

@[simp] theorem DivTable.entry_zero (t : DivTable) : t.entry 0#2 = some t.d100 := rfl
@[simp] theorem DivTable.entry_one (t : DivTable) : t.entry 1#2 = some t.d250 := rfl
@[simp] theorem DivTable.entry_two (t : DivTable) : t.entry 2#2 = some t.d400 := rfl
@[simp] theorem DivTable.entry_three (t : DivTable) : t.entry 3#2 = none := rfl

/-- The table has an entry for every recognized mode. -/
theorem DivTable.entry_isSome (t : DivTable) {m : ModeBits} (hm : m ≠ 3) : (t.entry m).isSome = true := by
  obtain rfl | rfl | rfl | rfl := ModeBits.eq_cases m
  · rfl
  · rfl
  · rfl
  · exact absurd rfl hm

/-- In a table of pairwise distinct divisors the entry tells which recognized mode it is of (R11). -/
theorem DivTable.entry_injective {t : DivTable} (ht : t.distinct = true) {m m' : ModeBits} (hm : m ≠ 3) (hm' : m' ≠ 3)
    (he : t.entry m = t.entry m') : m = m' := by
  obtain ⟨h12, h14, h24⟩ := DivTable.distinct_iff.mp ht
  obtain rfl | rfl | rfl | rfl := ModeBits.eq_cases m
  · obtain rfl | rfl | rfl | rfl := ModeBits.eq_cases m' <;> simp_all
  · obtain rfl | rfl | rfl | rfl := ModeBits.eq_cases m' <;> simp_all
  · obtain rfl | rfl | rfl | rfl := ModeBits.eq_cases m' <;> simp_all
  · exact absurd rfl hm

theorem Config.table_of_passed {c : Config} {t : DivTable} (h : c.divTable = some t) : c.table = some t := by
  simp [Config.table, h]

theorem Config.table_of_none {c : Config} (h : c.divTable = none) : c.table = defaultTable c.fClk := by
  simp [Config.table, h]

/-- The default table holds the default divisors of the three frequencies (R222). -/
theorem defaultTable_eq_some {fClk : Nat} {t : DivTable} (h : defaultTable fClk = some t) :
    defaultDivisor fClk 100000 = some t.d100 ∧ defaultDivisor fClk 250000 = some t.d250 ∧
      defaultDivisor fClk 400000 = some t.d400 := by
  unfold defaultTable at h
  split at h
  · next ha hb hc => cases h; exact ⟨ha, hb, hc⟩
  · cases h

/-- Each entry of the default table is the default divisor of its mode's frequency (R222). -/
theorem defaultTable_entry {fClk f : Nat} {t : DivTable} {m : ModeBits} (h : defaultTable fClk = some t)
    (hf : targetFreq m = some f) : t.entry m = defaultDivisor fClk f := by
  obtain ⟨ha, hb, hc⟩ := defaultTable_eq_some h
  obtain rfl | rfl | rfl | rfl := ModeBits.eq_cases m <;> cases hf
  · exact ha.symm
  · exact hb.symm
  · exact hc.symm

/-- Settles O13: admissibility gives a table of pairwise distinct divisors, so its entries tell the recognized modes apart;
a default table's entries are the default divisors. -/
theorem admissibleTableCoversModes : Obligations.AdmissibleTableCoversModes := by
  refine ⟨?_, ⟨rfl, rfl, rfl, rfl⟩, ?_, fun c tb => Config.table_of_passed,
    fun tb => ⟨tb.entry_zero, tb.entry_one, tb.entry_two, tb.entry_three⟩⟩
  · intro c hc
    obtain ⟨-, -, ⟨tb, htb, hd⟩, -⟩ := Config.admissible_iff.mp hc
    exact ⟨tb, htb, fun _ => tb.entry_isSome, fun _ _ => DivTable.entry_injective hd⟩
  · intro c tb m f hnone htb hf
    rw [Config.table_of_none hnone] at htb
    exact defaultTable_entry htb hf

end Sys2Proof
end

section
/-! PROOFS. The statuses the translator tells apart, a micro-operation the bus does not answer, and the step as one turn
(R8, R12, R14). -/

namespace Sys2Proof.Machine

/-! Expected statuses -/

/-- Settles O22: each of the two primitives accepts one code only, and admissible codes keep the two apart. -/
theorem expectedCodesDiffer : Obligations.ExpectedCodesDiffer := by
  intro c st hc
  obtain ⟨-, -, -, hcodes⟩ := Config.admissible_iff.mp hc
  obtain ⟨hsla, hdata⟩ := StatusCodes.distinct_iff.mp hcodes
  simp only [statusOk, beq_iff_eq]
  exact ⟨fun ⟨hw, hr⟩ => hsla (hw ▸ hr), fun ⟨ha, hn⟩ => hdata (ha ▸ hn)⟩

/-! An unanswered micro-operation -/

/-- Settles O30: the primitive is a wait after the issue of its word, and an unanswered wait leaves it pending. -/
theorem unansweredPrimitiveWaits : Obligations.UnansweredPrimitiveWaits := by
  intro s u hu henv
  rw [exec_toInstr, performUop_eq u hu, busWait_unanswered (s := busIssue u s) henv]
  rfl

/-! The turn -/

theorem step_of_inadmissible {s : State} (h : s.cfg.admissible = false) :
    step s = .refused .inadmissibleConfiguration := by
  simp [step, h]

theorem step_of_canMove {s : State} (h : s.cfg.admissible = true) (hm : s.canMove = true) :
    step s = .next (controllerMove s) := by
  simp [step, turn, h, hm]

theorem step_of_not_canMove {s : State} (h : s.cfg.admissible = true) (hm : s.canMove = false) :
    step s = hostTurn (passPause s) := by
  simp [step, turn, h, hm]

theorem hostTurn_nil {s : State} (h : s.program = []) : hostTurn s = .next s := by
  simp [hostTurn, h]

theorem hostTurn_cons {s : State} {a : HostAction} {rest : List HostAction} (h : s.program = a :: rest) :
    hostTurn s = hostAct a { s with program := rest } := by
  simp [hostTurn, h]

@[simp] theorem passPause_program (s : State) : (passPause s).program = s.program := by
  obtain ⟨e, he⟩ := passPause_eq s
  rw [he]

/-- What the pause's end leaves: during a command a leading `late` or `hold` is dropped, and nothing else changes. -/
theorem passPause_eq_ite (s : State) :
    passPause s = { s with
      env := if s.seq.isSome && (s.env.head? == some .late || s.env.head? == some .hold) then s.env.tail else s.env } := by
  unfold passPause
  split
  · next hs he => simp [hs, he]
  · next hs he => simp [hs, he]
  · next hlate hhold =>
    rw [if_neg]
    simp only [Bool.and_eq_true, Bool.or_eq_true, beq_iff_eq, Option.isSome_iff_exists, List.head?_eq_some_iff]
    rintro ⟨⟨p, hp⟩, ⟨rest, he⟩ | ⟨rest, he⟩⟩
    · exact hlate p rest hp he
    · exact hhold p rest hp he

/-- Settles O60: a step is refused, or is the controller's move, or is the host's turn after the pause. -/
theorem stepIsOneTurn : Obligations.StepIsOneTurn := by
  intro s
  refine ⟨step_of_inadmissible, step_of_canMove, ?_, ?_, passPause_eq_ite s⟩
  · intro hadm hmove hprog
    rw [step_of_not_canMove hadm hmove, hostTurn_nil (by simp [hprog])]
  · intro a rest hadm hmove hprog
    rw [step_of_not_canMove hadm hmove, hostTurn_cons (by simpa using hprog)]

end Sys2Proof.Machine
end

section
/-! PROOFS. What one step can do, said once: the frame of the controller's moves, the effects a host action can have, and the
cases of a step that answers a next state (R8, R26, R37, R181). -/

namespace Sys2Proof.Machine

/-! The frame of the controller's moves -/

/-- What a move of the controller leaves: the parameters and CONFIGURED in every case, and RESULT unless the command ended.
A move never sets BUSY. -/
structure MoveFrame (s t : State) : Prop where
  cfg : t.cfg = s.cfg
  configured : t.configured = s.configured
  result : t.busy = true → s.busy = true ∧ t.resFail = s.resFail ∧ t.resCode = s.resCode

/-- An update of other fields is inside the frame. -/
theorem MoveFrame.of_eq {s t : State} (hcfg : t.cfg = s.cfg := by rfl) (hset : t.configured = s.configured := by rfl)
    (hbusy : t.busy = s.busy := by rfl) (hfail : t.resFail = s.resFail := by rfl)
    (hcode : t.resCode = s.resCode := by rfl) : MoveFrame s t :=
  ⟨hcfg, hset, fun h => ⟨hbusy ▸ h, hfail, hcode⟩⟩

theorem MoveFrame.refl (s : State) : MoveFrame s s := .of_eq

theorem MoveFrame.after {s t u : State} (h' : MoveFrame t u) (h : MoveFrame s t) : MoveFrame s u where
  cfg := h'.cfg.trans h.cfg
  configured := h'.configured.trans h.configured
  result hu := by
    obtain ⟨ht, hf', hc'⟩ := h'.result hu
    obtain ⟨hs, hf, hc⟩ := h.result ht
    exact ⟨hs, hf'.trans hf, hc'.trans hc⟩

theorem goto_moveFrame (p : SeqPos) (pc : SeqStep) (s : State) : MoveFrame s (goto p pc s) :=
  .of_eq

/-- The end of a transfer writes RESULT, and clears BUSY with it. -/
theorem endTransfer_moveFrame (r : Result) (s : State) : MoveFrame s (endTransfer r s) :=
  ⟨rfl, rfl, fun h => absurd h (by simp)⟩

theorem loopHead_moveFrame (p : SeqPos) (s : State) : MoveFrame s (loopHead p s) := by
  unfold loopHead
  split
  · exact .refl s
  · split_ifs
    · exact goto_moveFrame ..
    · exact endTransfer_moveFrame ..
    · exact goto_moveFrame ..
  · split_ifs <;> exact goto_moveFrame ..

theorem advance_moveFrame (p : SeqPos) (r : PrimOutcome) (s : State) : MoveFrame s (advance p r s) := by
  unfold advance
  split <;> simp only [MoveFrame.refl, goto_moveFrame, endTransfer_moveFrame, loopHead_moveFrame]

theorem deliver_moveFrame (s : State) : MoveFrame s (deliver s) := by
  unfold deliver
  split
  · exact (advance_moveFrame ..).after .of_eq
  · exact .refl s

theorem completePhase_moveFrame (u : MicroOp) (st d : Byte) (s : State) : MoveFrame s (completePhase u st d s) := by
  by_cases hu : u = .stop
  · subst hu; exact .refl s
  · rw [completePhase_eq u hu]; exact .of_eq

theorem busWait_moveFrame (u : MicroOp) (s : State) : MoveFrame s (busWait u (completePhase u) s) := by
  obtain ⟨st, d, rest, he⟩ | he := answered_or s.env
  · rw [busWait_answer he]
    exact (completePhase_moveFrame ..).after .of_eq
  · rw [busWait_unanswered he]
    exact .of_eq

theorem performUop_moveFrame (u : MicroOp) (s : State) : MoveFrame s (performUop u s) := by
  by_cases hu : u = .stop
  · subst hu; exact .of_eq
  · rw [performUop_eq u hu]
    exact (busWait_moveFrame ..).after .of_eq

theorem sequencerStep_moveFrame (p : SeqPos) (s : State) : MoveFrame s (sequencerStep p s) := by
  unfold sequencerStep
  split
  · exact goto_moveFrame ..
  · exact (loopHead_moveFrame ..).after .of_eq
  · split
    · exact (deliver_moveFrame _).after (performUop_moveFrame ..)
    · exact .refl s

theorem controllerMove_moveFrame (s : State) : MoveFrame s (controllerMove s) := by
  unfold controllerMove
  split
  · exact .refl s
  · split
    · exact (deliver_moveFrame _).after (busWait_moveFrame ..)
    · exact deliver_moveFrame s
    · exact sequencerStep_moveFrame ..

theorem runController_moveFrame (fuel : Nat) (s : State) : MoveFrame s (runController fuel s) :=
  runController_induct (P := MoveFrame s) (fun _ h _ => (controllerMove_moveFrame _).after h) fuel s (.refl s)

/-! The effects of a host action -/

/-- A truncated address lies in the buffer space (R24, R36). -/
theorem truncAddr_toNat_lt (c : Config) (w : Word) : (truncAddr c w).toNat < 2 ^ c.addrW := by
  rw [truncAddr, BitVec.toNat_ofNat]
  exact (Nat.mod_le ..).trans_lt (Nat.mod_lt _ (by positivity))

/-- The next states a host action can answer with. -/
inductive HostEffect (s : State) (a : HostAction) : State → Prop where
  /-- A read of any kind, a `wait`, or a write that is ignored. -/
  | look (w : Word) (prog : List HostAction) : HostEffect s a { s with readData := w, program := prog }
  | setBuf (b : Word) (hb : b.toNat < 2 ^ s.cfg.addrW) : HostEffect s a { s with buf := b }
  | setLen (n : Half) : HostEffect s a { s with len := n }
  | storeByte (addr : Nat) (v : Byte) (haddr : addr < 2 ^ s.cfg.addrW) : HostEffect s a { s with mem := s.mem.set addr v }
  | reset (ha : a = .reset) : HostEffect s a s.resetRegisters
  /-- A command that fails before any bus activity (R98, R183, R191, R224). -/
  | fail (c : Half) (b : Boundary) (hbusy : s.busy = false)
      (hc : c ∈ [errConfig, errLength, errNotConfigured, errBadCommand]) (hb : b = .free ∨ b = s.boundary) :
      HostEffect s a (endCommand (.failure c) { s with boundary := b })
  /-- An INIT that succeeds (R220). -/
  | configure (mode : ModeBits) (pu : Bool) (v : Byte) (t : DivTable) (hbusy : s.busy = false) (ht : s.cfg.table = some t)
      (hv : t.entry mode = some v) :
      HostEffect s a (endCommand .success (Machine.configure mode pu v { s with boundary := .free }))
  /-- A transfer that starts (R180), with the moves the controller then makes. -/
  | transfer (kind : CmdKind) (sla : SlaveAddr) (keep : Bool) (hbusy : s.busy = false) (hset : s.configured = true)
      (hkind : kind ≠ .init) (hlen : kind = .receive → s.len ≠ 0) :
      HostEffect s a (runController (commandMoves s.len) (startCommand (latched kind sla keep .start s) s))

theorem execInit_effect {s t : State} {a : HostAction} {mode : ModeBits} {pu : Bool}
    (h : execInit mode pu s = .next t) : HostEffect s a t := by
  unfold execInit at h
  split at h
  · cases h
  next hbusy =>
    have hbusy : s.busy = false := by simpa using hbusy
    split at h
    · cases h
      exact .fail errConfig .free hbusy (by decide) (.inl rfl)
    split at h
    · cases h
    next tb htb =>
      split at h
      · cases h
        exact .fail errConfig .free hbusy (by decide) (.inl rfl)
      next v hv =>
        cases h
        exact .configure mode pu v tb hbusy htb hv

theorem execTransmit_effect {s t : State} {a : HostAction} {sla : SlaveAddr} {keep : Bool}
    (h : execTransmit sla keep s = .next t) : HostEffect s a t := by
  unfold execTransmit at h
  split at h
  · cases h
  next hbusy =>
    have hbusy : s.busy = false := by simpa using hbusy
    split at h
    next hset =>
      cases h
      exact .transfer .transmit sla keep hbusy hset (by decide) (by simp)
    · cases h
      exact .fail errNotConfigured .free hbusy (by decide) (.inl rfl)

theorem execReceive_effect {s t : State} {a : HostAction} {sla : SlaveAddr}
    (h : execReceive sla s = .next t) : HostEffect s a t := by
  unfold execReceive at h
  split at h
  · cases h
  next hbusy =>
    have hbusy : s.busy = false := by simpa using hbusy
    split at h
    next hset =>
      split at h
      · cases h
        exact .fail errLength .free hbusy (by decide) (.inl rfl)
      next hlen =>
        cases h
        exact .transfer .receive sla false hbusy hset (by decide) (fun _ => hlen)
    · cases h
      exact .fail errNotConfigured .free hbusy (by decide) (.inl rfl)

/-- A command word decodes to one of the three commands (R97, R182). -/
theorem decodeCommand_isCommand {w : Word} {i : Instr} (h : decodeCommand w = .ok i) : i.isCommand = true := by
  unfold decodeCommand at h
  split_ifs at h <;> cases h <;> rfl

theorem exec_effect {s t : State} {a : HostAction} {i : Instr} (hi : i.isCommand = true) (h : exec i s = .next t) :
    HostEffect s a t := by
  cases i with
  | init mode pu => exact execInit_effect h
  | transmit sla keep => exact execTransmit_effect h
  | receive sla => exact execReceive_effect h
  | _ => cases hi

theorem writeRegister_effect {s : State} {a : HostAction} (off : Nat) (w : Word) :
    HostEffect s a (writeRegister off w s) := by
  unfold writeRegister
  split_ifs
  · exact .setBuf _ (truncAddr_toNat_lt ..)
  · exact .setLen _
  · exact .look s.readData s.program

theorem hostWrite_effect {s t : State} {a : HostAction} {addr width : Nat} {w : Word}
    (h : hostWrite addr width w s = .next t) : HostEffect s a t := by
  unfold hostWrite at h
  split at h
  · cases h
  split_ifs at h with hbusy hoff
  · unfold writeCommand at h
    split at h
    next i hi => exact exec_effect (decodeCommand_isCommand hi) h
    · cases h
      exact .fail errBadCommand s.boundary (by simpa using hbusy) (by decide) (.inr rfl)
  · cases h
    exact writeRegister_effect ..

/-- A host action that answers a next state has one of the effects. -/
theorem hostAct_effect {s t : State} {a : HostAction} (h : hostAct a s = .next t) : HostEffect s a t := by
  cases a with
  | write addr width w => exact hostWrite_effect h
  | read addr width =>
    simp only [hostAct, hostRead] at h
    split at h
    · cases h
    · cases h
      exact .look _ s.program
  | bufRead addr =>
    simp only [hostAct, hostBufRead] at h
    split_ifs at h
    cases h
    exact .look _ s.program
  | bufWrite addr v =>
    simp only [hostAct, hostBufWrite] at h
    split_ifs at h with haddr
    cases h
    exact .storeByte addr v (by omega)
  | wait =>
    simp only [hostAct] at h
    split_ifs at h <;> cases h
    · exact .look _ _
    · exact .look _ s.program
  | reset =>
    cases h
    exact .reset rfl

/-- The cases of a step that answers a next state: a move of the controller, or, after the pause, nothing or the effect of
the host's next action. -/
theorem step_cases {s t : State} (h : step s = .next t) :
    (s.canMove = true ∧ t = controllerMove s) ∨
    (∃ e, t = { s with env := e }) ∨
    ∃ e a rest, s.program = a :: rest ∧ HostEffect { s with env := e, program := rest } a t := by
  have hadm : s.cfg.admissible = true := by
    by_contra hadm
    rw [step_of_inadmissible (by simpa using hadm)] at h
    cases h
  cases hm : s.canMove with
  | true =>
    rw [step_of_canMove hadm hm] at h
    cases h
    exact .inl ⟨rfl, rfl⟩
  | false =>
    obtain ⟨e, he⟩ := passPause_eq s
    rw [step_of_not_canMove hadm hm, he] at h
    right
    cases hp : s.program with
    | nil =>
      rw [hostTurn_nil (s := { s with env := e }) hp] at h
      cases h
      exact .inl ⟨e, by rw [← hp]⟩
    | cons a rest =>
      rw [hostTurn_cons (s := { s with env := e }) hp] at h
      exact .inr ⟨e, a, rest, rfl, hostAct_effect h⟩

/-! CONFIGURED, the parameters and RESULT over a step -/

theorem HostEffect.cfg {s t : State} {a : HostAction} (h : HostEffect s a t) : t.cfg = s.cfg := by
  cases h with
  | transfer => exact (runController_moveFrame ..).cfg
  | _ => rfl

/-- Only a reset clears CONFIGURED. -/
theorem HostEffect.configured {s t : State} {a : HostAction} (h : HostEffect s a t) (hs : s.configured = true)
    (ha : a ≠ .reset) : t.configured = true := by
  cases h with
  | reset h => exact absurd h ha
  | configure => rfl
  | transfer => exact (runController_moveFrame ..).configured.trans hs
  | _ => exact hs

/-- An action that leaves BUSY at 1 leaves RESULT: a reset and a command that ends at once leave BUSY at 0. -/
theorem HostEffect.result {s t : State} {a : HostAction} (h : HostEffect s a t) (ht : t.busy = true) :
    t.resFail = s.resFail ∧ t.resCode = s.resCode := by
  cases h with
  | reset => cases ht
  | fail => cases ht
  | configure => cases ht
  | transfer => exact ((runController_moveFrame ..).result ht).2
  | _ => exact ⟨rfl, rfl⟩

/-- Settles O50: a move keeps the parameters and CONFIGURED, and of the host's actions only a reset clears CONFIGURED. -/
theorem configuredUntilReset : Obligations.ConfiguredUntilReset := by
  intro s t h
  obtain ⟨-, rfl⟩ | ⟨e, rfl⟩ | ⟨e, a, rest, hp, he⟩ := step_cases h
  · have hf := controllerMove_moveFrame s
    exact ⟨hf.cfg, fun hs _ => hf.configured.trans hs⟩
  · exact ⟨rfl, fun hs _ => hs⟩
  · exact ⟨he.cfg, fun hs hr => he.configured hs (fun ha => hr rest (ha ▸ hp))⟩

/-- Settles O51: RESULT is written with BUSY's clearing only, in a move as in a host action. The invariant is not needed. -/
theorem resultChangesOnlyAtTheEnd : Obligations.ResultChangesOnlyAtTheEnd := by
  intro s t _ h ht
  obtain ⟨-, rfl⟩ | ⟨e, rfl⟩ | ⟨e, a, rest, -, he⟩ := step_cases h
  · exact ((controllerMove_moveFrame s).result ht).2
  · exact ⟨rfl, rfl⟩
  · exact he.result ht

end Sys2Proof.Machine
end

section
/-! PROOFS. The invariant of every run (R27 to R39, R60, R107, R241): reset establishes it, and each move of the controller
and each host action keeps it. -/

namespace Sys2Proof.Machine

/-! The parts of the invariant -/

/-- What the invariant says apart from the sequencer position: it also holds in the middle of a move. -/
structure State.Sound (s : State) : Prop where
  admissible : s.cfg.admissible = true
  memWf : s.mem.wf
  memRange : ∀ c ∈ s.mem, c.1 < 2 ^ s.cfg.addrW
  bufReserved : s.buf.toNat < 2 ^ s.cfg.addrW
  modeLegal : s.mode ≠ 3
  successCode : s.resFail = false → s.resCode = 0
  failureCode : codeProduced s.resCode
  setTogether : s.divSet = s.configured
  divisor : s.configured = true → ∃ t, s.cfg.table = some t ∧ t.entry s.mode = some s.divValue
  traceLegal : ∀ u ∈ s.trace, isTraceWord u = true
  openPhase : s.busOpen = s.phase.held

theorem State.inv_iff {s : State} : s.Inv ↔ s.Sound ∧ s.busy = s.seq.isSome ∧ s.positionOk where
  mp h := ⟨{ h with }, h.busyPosition, h.position⟩
  mpr := fun ⟨h, hbusy, hpos⟩ => { h with busyPosition := hbusy, position := hpos }

/-- The position is one a transfer of a configured controller latches and keeps (R38, R180, R183, R191). -/
structure SeqPos.Fits (p : SeqPos) (s : State) : Prop where
  busy : s.busy = true
  configured : s.configured = true
  kind : p.kind ≠ .init
  base : p.base.toNat < 2 ^ s.cfg.addrW
  len : p.kind = .receive → p.len ≠ 0

/-- Between commands the boundary is free and the phase is a resting one. -/
theorem State.Inv.idle {s : State} (h : s.Inv) (hs : s.seq = none) : s.boundary = .free ∧ s.phase.resting = true := by
  have hpos := h.position
  rwa [State.positionOk, hs] at hpos

/-- Inside a command the position fits, the phase is the position's, and at most its own micro-operation is waiting. -/
theorem State.Inv.running {s : State} {p : SeqPos} (h : s.Inv) (hs : s.seq = some p) :
    p.Fits s ∧ p.inPhase s.phase ∧ (s.boundary = .free ∨ ∃ u, s.boundary = .waiting u ∧ p.uop = some u ∧ u ≠ .stop) := by
  have hpos := h.position
  rw [State.positionOk, hs] at hpos
  obtain ⟨hset, hkind, hbase, hlen, hph, hb⟩ := hpos
  exact ⟨⟨by simp [h.busyPosition, hs], hset, hkind, hbase, hlen⟩, hph, hb⟩

theorem inv_of_running {s : State} {p : SeqPos} (h : s.Sound) (hs : s.seq = some p) (hfit : p.Fits s)
    (hph : p.inPhase s.phase)
    (hb : s.boundary = .free ∨ ∃ u, s.boundary = .waiting u ∧ p.uop = some u ∧ u ≠ .stop) : s.Inv := by
  refine State.inv_iff.mpr ⟨h, by simp [hfit.busy, hs], ?_⟩
  rw [State.positionOk, hs]
  exact ⟨hfit.configured, hfit.kind, hfit.base, hfit.len, hph, hb⟩

/-! Phases, codes and trace words -/

/-- At the end of a transfer the phase is a resting one, and the bus is held exactly if it was. -/
theorem BusPhase.atEnd_resting (ph : BusPhase) : ph.atEnd.resting = true := by cases ph <;> rfl

theorem BusPhase.atEnd_held (ph : BusPhase) : ph.atEnd.held = ph.held := by cases ph <;> rfl

/-- A START that succeeds takes the bus, and WADDR, WBYTE and RBYTE hold it if it was held (R31, R39). -/
theorem phaseAfter_held {u : MicroOp} (hu : u ≠ .stop) (ph : BusPhase) :
    (phaseAfter u ph).held = if u = .start then true else ph.held := by
  cases u with
  | stop => exact absurd rfl hu
  | start => rfl
  | waddr b => cases ph <;> rfl
  | wbyte d => cases ph <;> rfl
  | rbyteAck => cases ph <;> rfl
  | rbyteNack => cases ph <;> rfl

theorem codeProduced_setWidth (st : Byte) : codeProduced (st.setWidth 16) := by
  rw [codeProduced, BitVec.toNat_setWidth]
  omega

theorem codeProduced_synthetic {c : Half} (h : c ∈ [errConfig, errLength, errNotConfigured, errBadCommand]) :
    codeProduced c := by
  simp only [List.mem_cons, List.not_mem_nil, or_false] at h
  unfold codeProduced
  obtain rfl | rfl | rfl | rfl := h <;> decide

theorem translateStatus_cases (c : StatusCodes) (k : PrimKind) (st : Byte) :
    translateStatus c k st = .ok ∨ ∃ f, translateStatus c k st = .fail f ∧ codeProduced f := by
  unfold translateStatus
  split
  · exact .inl rfl
  · exact .inr ⟨_, rfl, codeProduced_setWidth st⟩

theorem readOutcome_cases (c : Config) (k : PrimKind) (st d : Byte) :
    (∃ b, readOutcome c k st d = .okData b) ∨ ∃ f, readOutcome c k st d = .fail f ∧ codeProduced f := by
  unfold readOutcome
  obtain h | ⟨f, h, hf⟩ := translateStatus_cases c.codes k st
  · exact .inl ⟨d, by simp [h]⟩
  · rw [h]
    cases c.legacyRead with
    | true => exact .inl ⟨st, rfl⟩
    | false => exact .inr ⟨f, rfl, hf⟩

/-- Every micro-operation's word may stand in a trace (R107). -/
theorem MicroOp.word_isTraceWord (u : MicroOp) : isTraceWord u.word = true := by
  cases u with
  | waddr b => exact (by decide : ∀ b : Byte, isTraceWord (0x300 ||| b.setWidth 12) = true) b
  | wbyte d => exact (by decide : ∀ d : Byte, isTraceWord (0x400 ||| d.setWidth 12) = true) d
  | _ => rfl

theorem trace_append_legal {l : List UopWord} (h : ∀ w ∈ l, isTraceWord w = true) (u : MicroOp) :
    ∀ w ∈ l ++ [u.word], isTraceWord w = true := by
  intro w hw
  obtain hw | hw := List.mem_append.mp hw
  · exact h w hw
  · rw [List.mem_singleton.mp hw]
    exact u.word_isTraceWord

/-- A byte stored inside the buffer space keeps the memory inside it (R60). -/
theorem State.Sound.storeByte {s : State} (h : s.Sound) {a : Nat} (v : Byte) (ha : a < 2 ^ s.cfg.addrW) :
    ({ s with mem := s.mem.set a v } : State).Sound :=
  { h with
    memWf := Memory.set_wf a v h.memWf
    memRange := fun c hc => by
      obtain hc | ⟨rfl, -, -⟩ := Memory.mem_set hc
      · exact h.memRange c hc
      · exact ha }

/-! The micro-operation of a step (R185, R190) -/

theorem SeqPos.uop_start {p : SeqPos} (hp : p.pc = .start) : p.uop = some .start := by rw [uop, hp]

theorem SeqPos.uop_waddr {p : SeqPos} (hp : p.pc = .waddr) : p.uop = some (.waddr (addrByte p.sla p.kind.dir)) := by
  rw [uop, hp]

theorem SeqPos.uop_wbyte {p : SeqPos} {d : Byte} (hp : p.pc = .wbyte d) : p.uop = some (.wbyte d) := by rw [uop, hp]

theorem SeqPos.uop_rbyte {p : SeqPos} (hp : p.pc = .rbyte) : p.uop = some (if p.ack then .rbyteAck else .rbyteNack) := by
  rw [uop, hp]

theorem SeqPos.uop_stop {p : SeqPos} {res : Result} (hp : p.pc = .stop res) : p.uop = some .stop := by rw [uop, hp]

/-! The sequencer's moves -/

/-- The end of a transfer leaves the invariant: no position, and a resting phase that still tells whether the bus is held. -/
theorem endTransfer_inv {s : State} {r : Result} (h : s.Sound) (hfree : s.boundary = .free) (hr : codeProduced r.code) :
    (endTransfer r s).Inv := by
  have hs : (endTransfer r s).Sound :=
    { h with
      successCode := by cases r <;> simp [Result.failBit, Result.code]
      failureCode := hr
      openPhase := h.openPhase.trans s.phase.atEnd_held.symm }
  exact State.inv_iff.mpr ⟨hs, rfl, hfree, s.phase.atEnd_resting⟩

theorem goto_inv {s : State} {p : SeqPos} {pc : SeqStep} (h : s.Sound) (hfit : p.Fits s) (hfree : s.boundary = .free)
    (hph : ({ p with pc := pc } : SeqPos).inPhase s.phase) : (goto p pc s).Inv :=
  inv_of_running (s := goto p pc s) { h with } rfl { hfit with } hph (.inl hfree)

/-- The phase between two data bytes (R39). -/
def SeqPos.dataPhase (p : SeqPos) : BusPhase :=
  if p.idx = 0 then .addressAcked else if p.kind = .receive then .reading else .writing

theorem loopHead_inv {s : State} {p : SeqPos} (h : s.Sound) (hfit : p.Fits s) (hfree : s.boundary = .free)
    (hle : p.idx ≤ p.len) (hph : s.phase = p.dataPhase) : (loopHead p s).Inv := by
  have hend : ¬p.idx < p.len → p.idx = p.len := fun hlt => by bv_omega
  have hkind := hfit.kind
  unfold loopHead
  split
  next hk => exact absurd hk hkind
  next hk =>
    have hph : s.phase = if p.idx = 0 then .addressAcked else .writing := by simpa [SeqPos.dataPhase, hk] using hph
    split_ifs with hlt hkeep
    · exact goto_inv h hfit hfree ⟨hk, hlt, hph⟩
    · exact endTransfer_inv h hfree (by simp [codeProduced, Result.code])
    · exact goto_inv h hfit hfree ⟨hend hlt, .inl ⟨hk, by simpa using hkeep, hph⟩⟩
  next hk =>
    have hph : s.phase = if p.idx = 0 then .addressAcked else .reading := by simpa [SeqPos.dataPhase, hk] using hph
    split_ifs with hlt
    · exact goto_inv h hfit hfree ⟨hk, hlt, hph⟩
    · have hidx : p.idx ≠ 0 := hend hlt ▸ hfit.len hk
      exact goto_inv h hfit hfree ⟨hend hlt, .inr ⟨hk, hph.trans (if_neg hidx)⟩⟩

/-- After a data byte the index is at most LEN and no longer 0. -/
theorem nextByte_bounds {p : SeqPos} (h : p.idx < p.len) : p.nextByte.idx ≤ p.nextByte.len ∧ p.nextByte.idx ≠ 0 := by
  simp only [SeqPos.nextByte]
  constructor <;> bv_omega

/-- An outcome of a micro-operation that waits is a success or carries a code that may be produced (R162, R241). -/
theorem phaseOutcome_cases {u : MicroOp} (hu : u ≠ .stop) (c : Config) (st d : Byte) :
    (phaseOutcome c u st d).isOk = true ∨ ∃ f, phaseOutcome c u st d = .fail f ∧ codeProduced f := by
  have htr : ∀ k, (translateStatus c.codes k st).isOk = true ∨
      ∃ f, translateStatus c.codes k st = .fail f ∧ codeProduced f := fun k =>
    (translateStatus_cases c.codes k st).imp_left fun h => by rw [h]; rfl
  have hrd : ∀ k, (readOutcome c k st d).isOk = true ∨ ∃ f, readOutcome c k st d = .fail f ∧ codeProduced f := fun k =>
    (readOutcome_cases c k st d).imp_left fun ⟨b, h⟩ => by rw [h]; rfl
  cases u with
  | start => exact htr _
  | stop => exact absurd rfl hu
  | waddr b => exact htr _
  | wbyte b => exact htr _
  | rbyteAck => exact hrd _
  | rbyteNack => exact hrd _

theorem advance_start_ok {p : SeqPos} {r : PrimOutcome} (hp : p.pc = .start) (hr : r.isOk = true) (s : State) :
    advance p r s = goto p .waddr s := by
  cases r with
  | fail c => cases hr
  | _ => simp only [advance, hp]

theorem advance_waddr_ok {p : SeqPos} {r : PrimOutcome} (hp : p.pc = .waddr) (hr : r.isOk = true) (s : State) :
    advance p r s = loopHead p s := by
  cases r with
  | fail c => cases hr
  | _ => simp only [advance, hp]

theorem advance_wbyte_ok {p : SeqPos} {r : PrimOutcome} {d : Byte} (hp : p.pc = .wbyte d) (hr : r.isOk = true)
    (s : State) : advance p r s = loopHead p.nextByte s := by
  cases r with
  | fail c => cases hr
  | _ => simp only [advance, hp]

/-- A failure ends the command, or sends a failed read on to STOP (R186, R192, R193). -/
theorem advance_fail_inv {s : State} {p : SeqPos} {u : MicroOp} {f : Half} (h : s.Sound) (hfit : p.Fits s)
    (hfree : s.boundary = .free) (hu : p.uop = some u) (hu' : u ≠ .stop) (hin : p.inPhase s.phase) (hf : codeProduced f) :
    (advance p (.fail f) s).Inv := by
  cases hpc : p.pc with
  | start => simpa only [advance, hpc] using endTransfer_inv (r := .failure f) h hfree hf
  | waddr => simpa only [advance, hpc] using endTransfer_inv (r := .failure f) h hfree hf
  | wbyte d => simpa only [advance, hpc] using endTransfer_inv (r := .failure f) h hfree hf
  | rbyte =>
    rw [SeqPos.inPhase, hpc] at hin
    obtain ⟨hk, hlt, hph⟩ := hin
    simpa only [advance, hpc] using goto_inv (pc := .stop (.failure f)) h hfit hfree ⟨hk, hlt, hph, hf⟩
  | stop res =>
    rw [SeqPos.uop_stop hpc] at hu
    exact absurd (Option.some.inj hu).symm hu'
  | _ => simp [SeqPos.uop, hpc] at hu

/-- A success moves the position on; `ph` is the phase before the micro-operation. -/
theorem advance_ok_inv {s : State} {p : SeqPos} {u : MicroOp} {r : PrimOutcome} {ph : BusPhase} (h : s.Sound)
    (hfit : p.Fits s) (hfree : s.boundary = .free) (hu : p.uop = some u) (hu' : u ≠ .stop) (hin : p.inPhase ph)
    (hph : s.phase = phaseAfter u ph) (hr : r.isOk = true) (hread : p.pc = .rbyte → r ≠ .ok) : (advance p r s).Inv := by
  cases hpc : p.pc with
  | start =>
    rw [SeqPos.inPhase, hpc] at hin
    obtain ⟨hidx, -⟩ := hin
    obtain rfl := Option.some.inj ((SeqPos.uop_start hpc).symm.trans hu)
    rw [advance_start_ok hpc hr]
    exact goto_inv h hfit hfree ⟨hidx, hph⟩
  | waddr =>
    rw [SeqPos.inPhase, hpc] at hin
    obtain ⟨hidx, rfl⟩ := hin
    obtain rfl := Option.some.inj ((SeqPos.uop_waddr hpc).symm.trans hu)
    have hph : s.phase = .addressAcked := hph
    rw [advance_waddr_ok hpc hr]
    exact loopHead_inv h hfit hfree (by rw [hidx]; bv_omega) (by rw [hph, SeqPos.dataPhase, if_pos hidx])
  | wbyte d =>
    rw [SeqPos.inPhase, hpc] at hin
    obtain ⟨hk, hlt, rfl⟩ := hin
    obtain rfl := Option.some.inj ((SeqPos.uop_wbyte hpc).symm.trans hu)
    obtain ⟨hle, hidx⟩ := nextByte_bounds hlt
    have hph : s.phase = .writing := by rw [hph]; split_ifs <;> rfl
    rw [advance_wbyte_ok hpc hr]
    exact loopHead_inv h { hfit with } hfree hle (by rw [hph, SeqPos.dataPhase, if_neg hidx]; simp [SeqPos.nextByte, hk])
  | rbyte =>
    rw [SeqPos.inPhase, hpc] at hin
    obtain ⟨hk, hlt, rfl⟩ := hin
    have hph : s.phase = .reading := by
      rw [hph, ← Option.some.inj ((SeqPos.uop_rbyte hpc).symm.trans hu)]
      split_ifs <;> rfl
    cases r with
    | fail c => cases hr
    | ok => exact absurd rfl (hread hpc)
    | okData d => simpa only [advance, hpc] using goto_inv (pc := .store d) h hfit hfree ⟨hk, hlt, hph⟩
  | stop res =>
    rw [SeqPos.uop_stop hpc] at hu
    exact absurd (Option.some.inj hu).symm hu'
  | _ => simp [SeqPos.uop, hpc] at hu

/-- An answered micro-operation of the position, with what the sequencer does with its outcome, keeps the invariant. -/
theorem answered_inv {s : State} {p : SeqPos} {u : MicroOp} {st d : Byte} {rest : List EnvEvent} {tr : List UopWord}
    (h : s.Inv) (hs : s.seq = some p) (hu : p.uop = some u) (hu' : u ≠ .stop) (htr : ∀ w ∈ tr, isTraceWord w = true) :
    (advance p (phaseOutcome s.cfg u st d) { s with
      env := rest, trace := tr, lastRaw := st, boundary := .free,
      busOpen := if (phaseOutcome s.cfg u st d).isOk ∧ u = .start then true else s.busOpen,
      phase := if (phaseOutcome s.cfg u st d).isOk then phaseAfter u s.phase else s.phase }).Inv := by
  obtain ⟨hfit, hin, -⟩ := h.running hs
  obtain hok | ⟨f, hf, hcode⟩ := phaseOutcome_cases hu' s.cfg st d
  · have hopen : (if (phaseOutcome s.cfg u st d).isOk ∧ u = .start then true else s.busOpen) =
        (if (phaseOutcome s.cfg u st d).isOk then phaseAfter u s.phase else s.phase).held := by
      simp only [hok, true_and, if_true, phaseAfter_held hu', h.openPhase]
    refine advance_ok_inv (u := u) (ph := s.phase) { h with traceLegal := htr, openPhase := hopen } { hfit with } rfl hu hu'
      hin (by simp only [hok, if_true]) hok ?_
    intro hpc
    rw [← Option.some.inj ((SeqPos.uop_rbyte hpc).symm.trans hu)]
    split_ifs
    · exact readOutcome_ne_ok s.cfg .rbyteAck st d
    · exact readOutcome_ne_ok s.cfg .rbyteNack st d
  · have hfail : (PrimOutcome.fail f).isOk = false := rfl
    simp only [hf, hfail, Bool.false_eq_true, false_and, if_false]
    exact advance_fail_inv { h with traceLegal := htr } { hfit with } rfl hu hu' hin hcode

/-- With the boundary free, the position's step keeps the invariant. -/
theorem controllerMove_free_inv {s : State} {p : SeqPos} (h : s.Inv) (hs : s.seq = some p) (hfree : s.boundary = .free) :
    (controllerMove s).Inv := by
  obtain ⟨hfit, hin, -⟩ := h.running hs
  obtain ⟨hsound, -, -⟩ := State.inv_iff.mp h
  have hsend : ∀ u, p.uop = some u → u ≠ .stop → (controllerMove s).Inv := by
    intro u hu hu'
    have htr := trace_append_legal h.traceLegal u
    obtain ⟨st, d, rest, he⟩ | he := answered_or s.env
    · rw [controllerMove_answered hs hfree hu hu' he]
      exact answered_inv h hs hu hu' htr
    · rw [controllerMove_unanswered hs hfree hu hu' he]
      exact inv_of_running { h with traceLegal := htr } hs { hfit with } hin (.inr ⟨u, rfl, hu, hu'⟩)
  rw [SeqPos.inPhase] at hin
  cases hpc : p.pc with
  | configure => rw [hpc] at hin; exact hin.elim
  | start => exact hsend _ (SeqPos.uop_start hpc) (by simp)
  | waddr => exact hsend _ (SeqPos.uop_waddr hpc) (by simp)
  | load =>
    rw [hpc] at hin
    rw [controllerMove_load hs hfree hpc]
    exact goto_inv hsound hfit hfree hin
  | wbyte d => exact hsend _ (SeqPos.uop_wbyte hpc) (by simp)
  | rbyte => exact hsend _ (SeqPos.uop_rbyte hpc) (by split_ifs <;> simp)
  | store d =>
    rw [hpc] at hin
    obtain ⟨hk, hlt, hph⟩ := hin
    obtain ⟨hle, hidx⟩ := nextByte_bounds hlt
    rw [controllerMove_store hs hfree hpc]
    refine loopHead_inv (hsound.storeByte d (Nat.mod_lt _ (by positivity))) { hfit with } hfree hle ?_
    rw [SeqPos.dataPhase, if_neg hidx]
    simpa [SeqPos.nextByte, hk] using hph
  | stop res =>
    rw [hpc] at hin
    rw [controllerMove_stop hs hfree hpc]
    refine endTransfer_inv { h with traceLegal := trace_append_legal h.traceLegal .stop, openPhase := rfl } rfl ?_
    cases res with
    | success => simp [codeProduced, Result.code]
    | failure c =>
      obtain ⟨-, -, -, hc⟩ := hin
      exact hc

/-- A phase that is not answered stops the controller. -/
theorem canMove_unanswered {s : State} {p : SeqPos} {u : MicroOp} (hs : s.seq = some p) (hw : s.boundary = .waiting u)
    (he : ∀ st d rest, s.env ≠ .answer st d :: rest) : s.canMove = false := by
  simp only [State.canMove, hs, hw]

/-- Every move of the controller keeps the invariant. -/
theorem controllerMove_inv {s : State} (h : s.Inv) (hmove : s.canMove = true) : (controllerMove s).Inv := by
  cases hs : s.seq with
  | none => rwa [controllerMove_idle hs]
  | some p =>
    obtain ⟨-, -, hfree | ⟨u, hw, hu, hu'⟩⟩ := h.running hs
    · exact controllerMove_free_inv h hs hfree
    · obtain ⟨st, d, rest, he⟩ | he := answered_or s.env
      · rw [controllerMove_answer hs hw hu' he]
        exact answered_inv h hs hu hu' h.traceLegal
      · rw [canMove_unanswered hs hw he] at hmove
        cases hmove

theorem runController_inv {s : State} (h : s.Inv) (fuel : Nat) : (runController fuel s).Inv :=
  runController_induct (P := State.Inv) (fun _ h hm => controllerMove_inv h hm) fuel s h

/-! Reset and the host's actions -/

/-- A reset leaves the invariant where the parameters are admissible, the memory canonical and the trace legal (R43, R270). -/
theorem resetRegisters_inv {s : State} (hadm : s.cfg.admissible = true) (hwf : s.mem.wf)
    (hrange : ∀ c ∈ s.mem, c.1 < 2 ^ s.cfg.addrW) (htr : ∀ u ∈ s.trace, isTraceWord u = true) : s.resetRegisters.Inv where
  admissible := hadm
  memWf := hwf
  memRange := hrange
  bufReserved := by simp
  modeLegal := by simp
  successCode _ := rfl
  failureCode := by simp [codeProduced]
  setTogether := rfl
  divisor h := absurd h (by simp)
  traceLegal := htr
  busyPosition := rfl
  openPhase := rfl
  position := ⟨rfl, rfl⟩

/-- A command that fails before any bus activity leaves the invariant. -/
theorem endCommand_fail_inv {s : State} {c : Half} (h : s.Inv) (hs : s.seq = none) (hc : codeProduced c) :
    (endCommand (.failure c) s).Inv :=
  { h with
    successCode := fun h => absurd h (by simp [Result.failBit])
    failureCode := hc
    busyPosition := rfl
    position := h.idle hs }

/-- An INIT that succeeds leaves the invariant: MODE, DIV.VALUE, DIV.SET and CONFIGURED are written together (R220). -/
theorem endCommand_configure_inv {s : State} {mode : ModeBits} {pu : Bool} {v : Byte} {tb : DivTable} (h : s.Inv)
    (hs : s.seq = none) (htb : s.cfg.table = some tb) (hv : tb.entry mode = some v) :
    (endCommand .success (configure mode pu v s)).Inv :=
  { h with
    modeLegal := by rintro (rfl : mode = 3); simp at hv
    successCode := fun _ => rfl
    failureCode := by simp [codeProduced, Result.code]
    setTogether := rfl
    divisor := fun _ => ⟨tb, htb, hv⟩
    busyPosition := rfl
    position := h.idle hs }

/-- A transfer that starts is at its START, in the resting phase it found (R180). -/
theorem startCommand_inv {s : State} {kind : CmdKind} {sla : SlaveAddr} {keep : Bool} (h : s.Inv) (hs : s.seq = none)
    (hset : s.configured = true) (hkind : kind ≠ .init) (hlen : kind = .receive → s.len ≠ 0) :
    (startCommand (latched kind sla keep .start s) s).Inv :=
  inv_of_running { h with } rfl ⟨rfl, hset, hkind, h.bufReserved, hlen⟩ ⟨rfl, (h.idle hs).2⟩ (.inl rfl)

theorem HostEffect.inv {s t : State} {a : HostAction} (he : HostEffect s a t) (h : s.Inv) : t.Inv := by
  have hidle : s.busy = false → s.seq = none := fun hb => by simpa [h.busyPosition] using hb
  have hfree : s.busy = false → ({ s with boundary := .free } : State).Inv := fun hb => by
    rw [← (h.idle (hidle hb)).1]
    exact h
  cases he with
  | look w prog => exact { h with }
  | setBuf b hb => exact { h with bufReserved := hb }
  | setLen n => exact { h with }
  | storeByte addr v haddr =>
    obtain ⟨hsound, -, -⟩ := State.inv_iff.mp h
    exact State.inv_iff.mpr ⟨hsound.storeByte v haddr, h.busyPosition, h.position⟩
  | reset => exact resetRegisters_inv h.admissible h.memWf h.memRange h.traceLegal
  | fail c b hbusy hc hb =>
    obtain rfl | rfl := hb
    · exact endCommand_fail_inv (hfree hbusy) (hidle hbusy) (codeProduced_synthetic hc)
    · exact endCommand_fail_inv h (hidle hbusy) (codeProduced_synthetic hc)
  | configure mode pu v tb hbusy htb hv => exact endCommand_configure_inv (hfree hbusy) (hidle hbusy) htb hv
  | transfer kind sla keep hbusy hset hkind hlen =>
    exact runController_inv (startCommand_inv h (hidle hbusy) hset hkind hlen) _

/-- Settles O11: a step is a move of the controller, nothing, or the effect of a host action, and each keeps the invariant. -/
theorem stepKeepsInvariant : Obligations.StepKeepsInvariant := by
  intro s t h hstep
  obtain ⟨hmove, rfl⟩ | ⟨e, rfl⟩ | ⟨e, a, rest, -, he⟩ := step_cases hstep
  · exact controllerMove_inv h hmove
  · exact { h with }
  · exact he.inv { h with }

/-- Settles O10: State.reset is the reset of itself, and its parameters are admissible. -/
theorem resetMeetsInvariant : Obligations.ResetMeetsInvariant :=
  resetRegisters_inv (s := State.reset) (by decide) Memory.wf_nil (by simp [State.reset]) (by simp [State.reset])

end Sys2Proof.Machine
end

section
/-! PROOFS. The register window and the host's actions on it (R22 to R37, R43, R108, R180, R247). -/

namespace Sys2Proof.Machine

/-! The fields of the words the host reads -/

theorem resultWord_toNat (s : State) : (resultWord s).toNat = s.resFail.toNat * 2 ^ 16 + s.resCode.toNat := by
  simp only [resultWord, BitVec.toNat_cast, toNat_append_add, BitVec.toNat_ofBool, BitVec.toNat_zero]
  ring

theorem statWord_toNat (s : State) :
    (statWord s).toNat = s.mode.toNat * 2 ^ 12 + s.pullup.toNat * 2 ^ 11 + s.busOpen.toNat * 2 ^ 10 +
      s.configured.toNat * 2 ^ 9 + s.busy.toNat * 2 ^ 8 + s.lastRaw.toNat := by
  simp only [statWord, BitVec.toNat_cast, toNat_append_add, BitVec.toNat_ofBool, BitVec.toNat_zero]
  ring

theorem divWord_toNat (s : State) : (divWord s).toNat = s.divSet.toNat * 2 ^ 8 + s.divValue.toNat := by
  simp only [divWord, BitVec.toNat_cast, toNat_append_add, BitVec.toNat_ofBool, BitVec.toNat_zero]
  ring

theorem getLsbD_eq_iff {m : Nat} {w : BitVec m} {i : Nat} {b : Bool} : w.getLsbD i = b ↔ w.toNat / 2 ^ i % 2 = b.toNat := by
  rw [← bit_toNat]
  cases w.getLsbD i <;> cases b <;> decide

/-- RESULT: CODE in bits 15:0, FAIL in bit 16 (R26). -/
theorem resultWord_fields (s : State) :
    (resultWord s).extractLsb' 0 16 = s.resCode ∧ (resultWord s).getLsbD 16 = s.resFail ∧
      (resultWord s).extractLsb' 17 15 = 0 := by
  have hcode := s.resCode.isLt
  have hfail := s.resFail.toNat_lt
  simp only [extract_eq_iff, getLsbD_eq_iff, resultWord_toNat, BitVec.ofNat_eq_ofNat, BitVec.toNat_zero]
  refine ⟨?_, ?_, ?_⟩ <;> omega

/-- STAT: LAST_RAW, BUSY, CONFIGURED, BUS_OPEN, PULLUP and MODE from bit 0 up (R28). -/
theorem statWord_fields (s : State) :
    (statWord s).extractLsb' 0 8 = s.lastRaw ∧ (statWord s).getLsbD 8 = s.busy ∧
      (statWord s).getLsbD 9 = s.configured ∧ (statWord s).getLsbD 10 = s.busOpen ∧
      (statWord s).getLsbD 11 = s.pullup ∧ (statWord s).extractLsb' 12 2 = s.mode ∧
      (statWord s).extractLsb' 14 18 = 0 := by
  have hraw := s.lastRaw.isLt
  have hmode := s.mode.isLt
  have hbusy := s.busy.toNat_lt
  have hset := s.configured.toNat_lt
  have hopen := s.busOpen.toNat_lt
  have hpull := s.pullup.toNat_lt
  simp only [extract_eq_iff, getLsbD_eq_iff, statWord_toNat, BitVec.ofNat_eq_ofNat, BitVec.toNat_zero]
  refine ⟨?_, ?_, ?_, ?_, ?_, ?_, ?_⟩ <;> omega

/-- DIV: VALUE in bits 7:0, SET in bit 8 (R34). -/
theorem divWord_fields (s : State) :
    (divWord s).extractLsb' 0 8 = s.divValue ∧ (divWord s).getLsbD 8 = s.divSet ∧ (divWord s).extractLsb' 9 23 = 0 := by
  have hval := s.divValue.isLt
  have hset := s.divSet.toNat_lt
  simp only [extract_eq_iff, getLsbD_eq_iff, divWord_toNat, BitVec.ofNat_eq_ofNat, BitVec.toNat_zero]
  refine ⟨?_, ?_, ?_⟩ <;> omega

/-! Well-shaped accesses -/

/-- A 32-bit read at an offset of the window returns the register there and has no side effect (R22, R37). -/
theorem hostAct_read {s : State} {off : Nat} (h : off < 32) (h4 : off % 4 = 0) :
    hostAct (.read (s.cfg.base + off) 32) s = .next { s with readData := readRegister s off } := by
  simp only [hostAct, hostRead, windowOffset_ok h h4]

/-- A 32-bit write at an offset of the window while BUSY is 1 (R37). -/
theorem hostAct_write_busy {s : State} {off : Nat} {w : Word} (h : off < 32) (h4 : off % 4 = 0) (hb : s.busy = true) :
    hostAct (.write (s.cfg.base + off) 32 w) s = .fault .hostWriteWhileBusy := by
  simp only [hostAct, hostWrite, windowOffset_ok h h4, hb, if_true]

/-- A 32-bit write to a register other than CMD while BUSY is 0 (R36, R37). -/
theorem hostAct_write {s : State} {off : Nat} {w : Word} (h : off < 32) (h4 : off % 4 = 0) (h0 : off ≠ 0)
    (hb : s.busy = false) :
    hostAct (.write (s.cfg.base + off) 32 w) s = .next (writeRegister off w s) := by
  simp only [hostAct, hostWrite, windowOffset_ok h h4, hb, Bool.false_eq_true, if_false, h0]

/-- A 32-bit write to CMD while BUSY is 0 (R23, R180). -/
theorem hostAct_write_cmd {s : State} {w : Word} (hb : s.busy = false) :
    hostAct (.write s.cfg.base 32 w) s = writeCommand w s := by
  simp only [hostAct, hostWrite, windowOffset_cmd, hb, Bool.false_eq_true, if_false, if_true]

theorem writeRegister_ignored {off : Nat} (hbuf : off ≠ 0x04) (hlen : off ≠ 0x08) (w : Word) (s : State) :
    writeRegister off w s = s := by
  rw [writeRegister, if_neg hbuf, if_neg hlen]

/-- Bit by bit, BUF takes the low ADDR_W bits of the word written (R24, R36). -/
theorem truncAddr_getLsbD (c : Config) (w : Word) {i : Nat} (hi : i < 32) :
    (truncAddr c w).getLsbD i = (decide (i < c.addrW) && w.getLsbD i) := by
  simp only [truncAddr, BitVec.getLsbD_ofNat, Nat.testBit_mod_two_pow, hi, decide_true, Bool.true_and]
  rfl

/-- Settles O56: each offset reads its register, whose word holds the fields at their bits. -/
theorem registerReads : Obligations.RegisterReads := by
  intro s
  obtain ⟨hcode, hfail, hres⟩ := resultWord_fields s
  obtain ⟨hraw, hbusy, hset, hopen, hpull, hmode, hstat⟩ := statWord_fields s
  obtain ⟨hval, hdset, hdiv⟩ := divWord_fields s
  obtain ⟨hlen, hlen0⟩ : (s.len.setWidth 32).extractLsb' 0 16 = s.len ∧ (s.len.setWidth 32).extractLsb' 16 16 = 0 := by
    have := s.len.isLt
    simp only [extract_eq_iff, BitVec.toNat_setWidth, BitVec.ofNat_eq_ofNat, BitVec.toNat_zero]
    constructor <;> omega
  refine ⟨readRegister s, fun off h h4 => hostAct_read h h4, rfl, rfl, hlen, hlen0, hcode, hfail, hres, hraw, hbusy,
    hset, hopen, hpull, hmode, hstat, hval, hdset, hdiv, rfl, rfl, ?_, ?_⟩
  · intro hbuf i hi
    exact Nat.testBit_lt_two_pow (hbuf.trans_le (Nat.pow_le_pow_right (by decide) hi))
  · cases hb : s.busy <;> simp [hostAct, hb, readRegister]

/-- Settles O57: BUF takes the truncated word, LEN its low half, and the other registers ignore the write. -/
theorem registerWrites : Obligations.RegisterWrites := by
  intro s w hb _
  refine ⟨⟨truncAddr s.cfg w, hostAct_write (by decide) rfl (by decide) hb, fun i => truncAddr_getLsbD s.cfg w⟩, ?_, ?_⟩
  · rw [hostAct_write (by decide) rfl (by decide) hb, ← BitVec.setWidth_eq_extractLsb' (by decide)]
    rfl
  · intro off hoff
    obtain ⟨h, h4, h0, hbuf, hlen⟩ : off < 32 ∧ off % 4 = 0 ∧ off ≠ 0 ∧ off ≠ 0x04 ∧ off ≠ 0x08 := by
      revert off; decide
    rw [hostAct_write h h4 h0 hb, writeRegister_ignored hbuf hlen]

/-! Commands -/

/-- Settles O19: each of the three commands begins with the check of BUSY. -/
theorem commandWhileBusyFaults : Obligations.CommandWhileBusyFaults := by
  intro s i hb hi
  cases i with
  | init mode pu => simp only [exec, execInit, hb, if_true]
  | transmit sla keep => simp only [exec, execTransmit, hb, if_true]
  | receive sla => simp only [exec, execReceive, hb, if_true]
  | _ => cases hi

theorem passPause_idle {s : State} (hs : s.seq = none) : passPause s = s := by
  simp only [passPause, hs]

/-- Settles O45: an idle controller leaves the turn to the host, whose write to CMD is exec of the decoded command. -/
theorem stepRunsCommand : Obligations.StepRunsCommand := by
  intro s w i rest hidle hadm hprog hdec
  rw [step_of_not_canMove hadm (canMove_idle hidle.noPosition), passPause_idle hidle.noPosition, hostTurn_cons hprog]
  have hwrite := hostAct_write_cmd (s := { s with program := rest }) (w := w) hidle.notBusy
  rw [hwrite, writeCommand, hdec]

/-- Settles O53: the host has the turn, and a well-shaped write finds BUSY at 1. -/
theorem hostWriteWhileBusyFaults : Obligations.HostWriteWhileBusyFaults := by
  intro s addr w rest hadm hb hmove hprog hlo hhi h4
  obtain ⟨off, rfl⟩ := Nat.exists_eq_add_of_le hlo
  obtain ⟨e, he⟩ := passPause_eq s
  rw [step_of_not_canMove hadm hmove, he, hostTurn_cons (s := { s with env := e }) hprog]
  exact hostAct_write_busy (s := { s with env := e, program := rest }) (by omega) (by omega) hb

/-! Reset -/

/-- Settles O8: the reset state and a reset write the same value in each register. -/
theorem resetValues : Obligations.ResetValues := by
  refine ⟨fun s r hr => ?_, fun s => ⟨rfl, rfl, rfl⟩⟩
  simp only [List.mem_cons, List.not_mem_nil, or_false] at hr
  obtain rfl | rfl := hr
  · simp only [State.reset, and_self]
  · simp

/-- Settles O9: the host has the turn, and its reset leaves the reset registers and everything that is not the
controller's. -/
theorem resetAbandonsCommand : Obligations.ResetAbandonsCommand := by
  intro s rest hadm hmove hprog
  have hstep : step s = .next ({ passPause s with program := rest } : State).resetRegisters := by
    rw [step_of_not_canMove hadm hmove, hostTurn_cons (by rw [passPause_program, hprog])]
    rfl
  obtain ⟨e, he⟩ := passPause_eq s
  rw [he] at hstep ⊢
  exact ⟨_, hstep, ⟨rfl, rfl, rfl⟩, by simp⟩

end Sys2Proof.Machine
end

section
/-! PROOFS. A command whose phase is never answered (R29, R248). -/

namespace Sys2Proof.Machine

/-- With no choice of the environment to come, a pause is over at once. -/
theorem passPause_of_nil {s : State} (h : s.env = []) : passPause s = s := by
  unfold passPause
  split <;> simp_all

/-- While a phase is not answered and no answer is to come, every turn is the host's. -/
theorem step_unanswered {s : State} {p : SeqPos} {u : MicroOp} (hadm : s.cfg.admissible = true) (hs : s.seq = some p)
    (hw : s.boundary = .waiting u) (he : s.env = []) : step s = hostTurn s := by
  have hmove : s.canMove = false := canMove_unanswered hs hw (by simp [he])
  rw [step_of_not_canMove hadm hmove, passPause_of_nil he]

/-- While BUSY is 1 a `wait` reads STAT and stays the next action (R108). -/
theorem hostTurn_wait_busy {s : State} {rest : List HostAction} (hb : s.busy = true) (hp : s.program = .wait :: rest) :
    hostTurn s = .next { s with readData := statWord s } := by
  rw [hostTurn_cons hp, hostAct, if_pos hb, ← hp]
  rfl

/-- While the host waits, or has no action, an unanswered command stays as it is but for the value last read. -/
theorem step_unanswered_waiting {s : State} {p : SeqPos} {u : MicroOp} {rest : List HostAction}
    (hadm : s.cfg.admissible = true) (hb : s.busy = true) (hs : s.seq = some p) (hw : s.boundary = .waiting u)
    (he : s.env = []) (hp : s.program = [] ∨ s.program = .wait :: rest) :
    ∃ x, step s = .next { s with readData := x } := by
  rw [step_unanswered hadm hs hw he]
  obtain hp | hp := hp
  · exact ⟨s.readData, hostTurn_nil hp⟩
  · exact ⟨_, hostTurn_wait_busy hb hp⟩

theorem run_succ_of_step {s t : State} (h : step s = .next t) (k : Nat) :
    Sys2Proof.core.run (k + 1) s = Sys2Proof.core.run k t := by
  have hstep : Sys2Proof.core.step s = .next t := h
  simp only [Host.Core.run, hstep]

/-- A state that every step leaves but for the value last read stays so for any number of steps. -/
theorem run_of_steps_readData {s : State} (h : ∀ x, ∃ y, step { s with readData := x } = .next { s with readData := y })
    (k : Nat) : ∀ x, ∃ y, Sys2Proof.core.run k { s with readData := x } = .next { s with readData := y } := by
  induction k with
  | zero => exact fun x => ⟨x, rfl⟩
  | succ k ih =>
    intro x
    obtain ⟨y, hy⟩ := h x
    obtain ⟨z, hz⟩ := ih y
    exact ⟨z, (run_succ_of_step hy k).trans hz⟩

/-- Settles O48: the turn is the host's in every step; a wait and an empty program leave the state for the next one. -/
theorem unansweredCommandHangs : Obligations.UnansweredCommandHangs := by
  intro s p u hadm hb hs hw he
  refine ⟨fun addr rest hp => ?_, fun rest hp k => ?_⟩
  · rw [step_unanswered hadm hs hw he]
    obtain hp | hp | ⟨hp, hlo, hhi, h4⟩ := hp
    · exact ⟨s, hostTurn_nil hp, rfl, by simp [hp], hb, rfl, rfl, rfl, rfl, hs, hw, he⟩
    · exact ⟨_, hostTurn_wait_busy hb hp, rfl, by simp [hp], hb, rfl, rfl, rfl, rfl, hs, hw, he⟩
    · obtain ⟨off, rfl⟩ := Nat.exists_eq_add_of_le hlo
      have hread := hostAct_read (s := { s with program := rest }) (off := off) (by omega) (by omega)
      exact ⟨_, (hostTurn_cons hp).trans hread, rfl, by simp [hp], hb, rfl, rfl, rfl, rfl, hs, hw, he⟩
  · obtain ⟨y, hy⟩ := run_of_steps_readData (s := s)
      (fun x => step_unanswered_waiting (s := { s with readData := x }) hadm hb hs hw he hp) k s.readData
    exact ⟨_, hy, rfl⟩

end Sys2Proof.Machine
end

section
/-! PROOFS. BUS_OPEN is read by no rule (R31): every operation commutes with another value of the flag, up to the flag. -/

namespace Sys2Proof.Machine

/-- The two states are the same but for BUS_OPEN. -/
def SameButOpen (s t : State) : Prop := ∃ b, t = { s with busOpen := b }

namespace SameButOpen

variable {s t : State}

theorem seq (h : SameButOpen s t) : t.seq = s.seq := by obtain ⟨b, rfl⟩ := h; rfl

theorem boundary (h : SameButOpen s t) : t.boundary = s.boundary := by obtain ⟨b, rfl⟩ := h; rfl

theorem env (h : SameButOpen s t) : t.env = s.env := by obtain ⟨b, rfl⟩ := h; rfl

theorem canMove (h : SameButOpen s t) : t.canMove = s.canMove := by obtain ⟨b, rfl⟩ := h; rfl

/-- Such states are equal once the flag is set aside. -/
theorem forget (h : SameButOpen s t) : ({ t with busOpen := false } : State) = { s with busOpen := false } := by
  obtain ⟨b, rfl⟩ := h
  rfl

theorem goto (h : SameButOpen s t) (p : SeqPos) (pc : SeqStep) : SameButOpen (goto p pc s) (goto p pc t) := by
  obtain ⟨b, rfl⟩ := h
  exact ⟨b, rfl⟩

theorem endTransfer (h : SameButOpen s t) (r : Result) : SameButOpen (endTransfer r s) (endTransfer r t) := by
  obtain ⟨b, rfl⟩ := h
  exact ⟨b, rfl⟩

theorem loopHead (h : SameButOpen s t) (p : SeqPos) : SameButOpen (loopHead p s) (loopHead p t) := by
  unfold Machine.loopHead
  split
  · exact h
  · split_ifs
    · exact h.goto ..
    · exact h.endTransfer _
    · exact h.goto ..
  · split_ifs
    · exact h.goto ..
    · exact h.goto ..

theorem advance (h : SameButOpen s t) (p : SeqPos) (r : PrimOutcome) : SameButOpen (advance p r s) (advance p r t) := by
  unfold Machine.advance
  split <;> simp only [h, h.goto, h.endTransfer, h.loopHead]

theorem deliver (h : SameButOpen s t) : SameButOpen (deliver s) (deliver t) := by
  cases hs : s.seq with
  | none => rwa [deliver_idle hs, deliver_idle (h.seq.trans hs)]
  | some p =>
    cases hb : s.boundary with
    | done r =>
      have hfree : SameButOpen { s with boundary := .free } { t with boundary := .free } := by
        obtain ⟨b, rfl⟩ := h
        exact ⟨b, rfl⟩
      rw [deliver_done hs hb, deliver_done (h.seq.trans hs) (h.boundary.trans hb)]
      exact hfree.advance p r
    | _ => rwa [deliver_not_done (by simp [hb]), deliver_not_done (by simp [h.boundary, hb])]

theorem completePhase (h : SameButOpen s t) (u : MicroOp) (st d : Byte) :
    SameButOpen (completePhase u st d s) (completePhase u st d t) := by
  by_cases hu : u = .stop
  · subst hu
    exact h
  · obtain ⟨b, rfl⟩ := h
    rw [completePhase_eq u hu, completePhase_eq u hu]
    exact ⟨_, rfl⟩

theorem busWait (h : SameButOpen s t) (u : MicroOp) :
    SameButOpen (busWait u (Machine.completePhase u) s) (busWait u (Machine.completePhase u) t) := by
  obtain ⟨st, d, rest, he⟩ | he := answered_or s.env
  · have hrest : SameButOpen { s with env := rest } { t with env := rest } := by
      obtain ⟨b, rfl⟩ := h
      exact ⟨b, rfl⟩
    rw [busWait_answer he, busWait_answer (h.env.trans he)]
    exact hrest.completePhase u st d
  · rw [busWait_unanswered he, busWait_unanswered (h.env.symm ▸ he)]
    obtain ⟨b, rfl⟩ := h
    exact ⟨b, rfl⟩

theorem performUop (h : SameButOpen s t) (u : MicroOp) : SameButOpen (performUop u s) (performUop u t) := by
  have hissue : SameButOpen (busIssue u s) (busIssue u t) := by
    obtain ⟨b, rfl⟩ := h
    exact ⟨b, rfl⟩
  by_cases hu : u = .stop
  · subst hu
    obtain ⟨b, rfl⟩ := h
    exact ⟨false, rfl⟩
  · rw [performUop_eq u hu, performUop_eq u hu]
    exact hissue.busWait u

theorem sequencerStep (h : SameButOpen s t) (p : SeqPos) : SameButOpen (sequencerStep p s) (sequencerStep p t) := by
  unfold Machine.sequencerStep
  split
  · obtain ⟨b, rfl⟩ := h
    exact ⟨b, rfl⟩
  next d _ =>
    have hmem : SameButOpen { s with mem := s.mem.set (p.addr s.cfg) d } { t with mem := t.mem.set (p.addr t.cfg) d } := by
      obtain ⟨b, rfl⟩ := h
      exact ⟨b, rfl⟩
    exact hmem.loopHead p.nextByte
  · split
    · exact (h.performUop _).deliver
    · exact h

theorem controllerMove (h : SameButOpen s t) : SameButOpen (controllerMove s) (controllerMove t) := by
  cases hs : s.seq with
  | none => rwa [controllerMove_idle hs, controllerMove_idle (h.seq.trans hs)]
  | some p =>
    have ht := h.seq.trans hs
    cases hb : s.boundary with
    | waiting u =>
      rw [controllerMove_waiting hs hb, controllerMove_waiting ht (h.boundary.trans hb)]
      exact (h.busWait u).deliver
    | done r =>
      rw [controllerMove_done hs hb, controllerMove_done ht (h.boundary.trans hb)]
      exact h.deliver
    | free =>
      rw [controllerMove_free hs hb, controllerMove_free ht (h.boundary.trans hb)]
      exact h.sequencerStep p

theorem runController (h : SameButOpen s t) (fuel : Nat) : SameButOpen (runController fuel s) (runController fuel t) := by
  induction fuel generalizing s t with
  | zero => exact h
  | succ fuel ih =>
    simp only [Machine.runController, h.canMove]
    split
    · exact ih h.controllerMove
    · exact h

end SameButOpen

/-- Settles O44: each command checks flags other than BUS_OPEN and runs moves blind to it, and so does each primitive. -/
theorem busOpenIsNeverRead : Obligations.BusOpenIsNeverRead := by
  intro i s b
  have huop : ∀ u, SameButOpen (performUop u s) (performUop u { s with busOpen := b }) := fun u =>
    SameButOpen.performUop ⟨b, rfl⟩ u
  have hrun : ∀ n p, SameButOpen (runController n (startCommand p s))
      (runController n (startCommand p { s with busOpen := b })) := fun n p => SameButOpen.runController ⟨b, rfl⟩ n
  cases i with
  | init mode pu =>
    simp only [exec, execInit]
    split_ifs
    · rfl
    · rfl
    · cases s.cfg.table with
      | none => rfl
      | some tb =>
        dsimp only
        cases tb.entry mode with
        | none => rfl
        | some v => rfl
  | transmit sla keep =>
    simp only [exec, execTransmit]
    split_ifs
    · rfl
    · exact (hrun ..).forget
    · rfl
  | receive sla =>
    simp only [exec, execReceive]
    split_ifs
    · rfl
    · rfl
    · exact (hrun ..).forget
    · rfl
  | start => exact (huop .start).forget
  | stop => exact (huop .stop).forget
  | waddr d => exact (huop (.waddr d)).forget
  | wbyte d => exact (huop (.wbyte d)).forget
  | rbyteAck => exact (huop .rbyteAck).forget
  | rbyteNack => exact (huop .rbyteNack).forget

end Sys2Proof.Machine
end

section
/-! PROOFS. The buffer memory as ordinary memory, and its canonical form (R60, R69). -/

namespace Sys2Proof.Machine

/-- Settles O58: the laws of one write. -/
theorem memoryReadAfterWrite : Obligations.MemoryReadAfterWrite :=
  fun _ a _ v h => ⟨Memory.set_wf a v h, Memory.get_set_same a v h, Memory.get_set_other v h⟩

/-! Canonical memories -/

/-- The addresses after the first listed one lie above it. -/
theorem Memory.head_lt {c : Host.Cell} {m : Memory} (h : Memory.wf (c :: m)) : ∀ e ∈ m, c.1 < e.1 :=
  (List.pairwise_cons.mp h.1).1

theorem Memory.get_head (c : Host.Cell) (m : Memory) : Memory.get (c :: m) c.1 = c.2 := by
  simp [Memory.get]

theorem Memory.get_above {c : Host.Cell} {m : Memory} {a : Nat} (h : c.1 < a) : Memory.get (c :: m) a = m.get a := by
  rw [Memory.get, if_neg (by omega), if_neg (by omega)]

/-- The first listed byte differs from what an unlisted one reads as, so another memory that reads alike lists something at
or below its address. -/
theorem Memory.exists_le_of_get_eq {c : Host.Cell} {m m' : Memory} (h : Memory.wf (c :: m))
    (hget : ∀ a, Memory.get (c :: m) a = m'.get a) : ∃ e ∈ m', e.1 ≤ c.1 := by
  by_contra hlt
  push Not at hlt
  exact h.2 c (by simp) ((Memory.get_head c m).symm.trans ((hget c.1).trans (Memory.get_lt hlt)))

/-- The first listed address of a memory is at most that of one that reads alike. -/
theorem Memory.head_le_of_get_eq {c c' : Host.Cell} {m m' : Memory} (h : Memory.wf (c :: m)) (h' : Memory.wf (c' :: m'))
    (hget : ∀ a, Memory.get (c :: m) a = Memory.get (c' :: m') a) : c'.1 ≤ c.1 := by
  obtain ⟨e, he, hle⟩ := Memory.exists_le_of_get_eq h hget
  obtain rfl | he := List.mem_cons.mp he
  · exact hle
  · exact (Memory.head_lt h' e he).le.trans hle

/-- What the tail of a memory reads follows from what the memory reads: nothing up to the first address, the same above. -/
theorem Memory.get_tail {c : Host.Cell} {m : Memory} (h : Memory.wf (c :: m)) (a : Nat) :
    m.get a = if a ≤ c.1 then unlisted else Memory.get (c :: m) a := by
  split
  next ha => exact Memory.get_lt fun e he => ha.trans_lt (Memory.head_lt h e he)
  next ha => exact (Memory.get_above (by omega)).symm

/-- Settles O59, by induction on the list: the first entries agree in address and byte, and the tails read alike. -/
theorem canonicalMemoriesAreEqual : Obligations.CanonicalMemoriesAreEqual := by
  intro m
  induction m with
  | nil =>
    intro m' _ h' hget
    cases m' with
    | nil => rfl
    | cons c' m' => obtain ⟨e, he, -⟩ := Memory.exists_le_of_get_eq h' fun a => (hget a).symm; cases he
  | cons c m ih =>
    intro m' h h' hget
    cases m' with
    | nil => obtain ⟨e, he, -⟩ := Memory.exists_le_of_get_eq h hget; cases he
    | cons c' m' =>
      have haddr : c.1 = c'.1 :=
        (Memory.head_le_of_get_eq h' h fun a => (hget a).symm).antisymm (Memory.head_le_of_get_eq h h' hget)
      have hbyte : c.2 = c'.2 := by
        rw [← Memory.get_head c m, hget, haddr, Memory.get_head]
      have htail : m = m' := ih m' (Memory.wf_tail h) (Memory.wf_tail h') fun a => by
        rw [Memory.get_tail h, Memory.get_tail h', haddr, hget]
      rw [Prod.ext haddr hbyte, htail]

end Sys2Proof.Machine
end

section
/-! PROOFS. The host's accesses that are no register access of the window, or race with a command, and the access the memory
refuses a command (R22, R61 to R63, R68, R70, R248). -/

namespace Sys2Proof.Machine

/-! The window -/

theorem windowOffset_outside {c : Config} {addr : Nat} (h : addr < c.base ∨ c.base + 32 ≤ addr) (width : Nat) :
    windowOffset c addr width = .error .accessOutsideWindow := by
  rw [windowOffset, if_pos h]

/-- Inside the window, another width than 32 or an offset that is no multiple of 4 (R68). -/
theorem windowOffset_misshaped {c : Config} {addr width : Nat} (hlo : c.base ≤ addr) (hhi : addr < c.base + 32)
    (h : width ≠ 32 ∨ (addr - c.base) % 4 ≠ 0) : windowOffset c addr width = .error .unsupportedRegisterAccess := by
  rw [windowOffset, if_neg (by omega), if_pos h]

/-- An access the window does not admit faults the same for a write and a read. -/
theorem hostAct_windowFault {s : State} {addr width : Nat} {f : Fault} (h : windowOffset s.cfg addr width = .error f)
    (w : Word) : hostAct (.write addr width w) s = .fault f ∧ hostAct (.read addr width) s = .fault f := by
  simp only [hostAct, hostWrite, hostRead, h, and_self]

/-- Settles O54: the shape check answers before BUSY is looked at. -/
theorem unsupportedAccessFaults : Obligations.UnsupportedAccessFaults :=
  fun _ _ width w => ⟨fun hlo hhi h => hostAct_windowFault (windowOffset_misshaped hlo hhi h) w,
    fun h => hostAct_windowFault (windowOffset_outside h width) w⟩

/-! The running command's buffer -/

/-- The distance from the buffer's start to an address, around the ADDR_W-bit space, is the index of the byte there. -/
theorem bufAddr_distance {c : Config} {base : Word} {a : Nat} (ha : a < 2 ^ c.addrW) :
    bufAddr c base ((a + 2 ^ c.addrW - base.toNat % 2 ^ c.addrW) % 2 ^ c.addrW) = a := by
  have hb : base.toNat % 2 ^ c.addrW < 2 ^ c.addrW := Nat.mod_lt _ (by positivity)
  calc (base.toNat + (a + 2 ^ c.addrW - base.toNat % 2 ^ c.addrW) % 2 ^ c.addrW) % 2 ^ c.addrW
      = (base.toNat % 2 ^ c.addrW + (a + 2 ^ c.addrW - base.toNat % 2 ^ c.addrW)) % 2 ^ c.addrW := by simp
    _ = (a + 2 ^ c.addrW) % 2 ^ c.addrW := by rw [Nat.add_sub_cancel' (by omega)]
    _ = a := by rw [Nat.add_mod_right, Nat.mod_eq_of_lt ha]

/-- Two indices of one address agree around the ADDR_W-bit space. -/
theorem index_modEq_of_bufAddr_eq {c : Config} {base : Word} {i j : Nat} (h : bufAddr c base i = bufAddr c base j) :
    i ≡ j [MOD 2 ^ c.addrW] :=
  Nat.ModEq.add_left_cancel' base.toNat h

/-- The check on an address in `[base, base + n)` finds exactly the addresses of the n bytes (R62, R70). -/
theorem distance_lt_iff {c : Config} {base : Word} {a n : Nat} (ha : a < 2 ^ c.addrW) :
    (a + 2 ^ c.addrW - base.toNat % 2 ^ c.addrW) % 2 ^ c.addrW < n ↔ ∃ i < n, a = bufAddr c base i where
  mp h := ⟨_, h, (bufAddr_distance ha).symm⟩
  mpr := fun ⟨i, hi, hai⟩ => by
    have hmod := index_modEq_of_bufAddr_eq ((bufAddr_distance ha).trans hai)
    rw [Nat.ModEq, Nat.mod_mod] at hmod
    exact (hmod.trans_le (Nat.mod_le i _)).trans_lt hi

/-- A transfer owns exactly the bytes of its buffer. -/
theorem SeqPos.ownsByte_iff {c : Config} {p : SeqPos} {a : Nat} (hk : p.kind ≠ .init) (ha : a < 2 ^ c.addrW) :
    p.ownsByte c a = true ↔ ∃ i < p.len.toNat, a = bufAddr c p.base i := by
  rw [← distance_lt_iff ha, ownsByte]
  cases hkind : p.kind with
  | init => exact absurd hkind hk
  | transmit => exact decide_eq_true_iff
  | receive => exact decide_eq_true_iff

theorem bufferRace_idle {s : State} (hb : s.busy = false) (a : Nat) : bufferRace a s = false := by
  rw [bufferRace, hb, Bool.false_and]

theorem bufferRace_running {s : State} {p : SeqPos} (hb : s.busy = true) (hs : s.seq = some p) (a : Nat) :
    bufferRace a s = p.ownsByte s.cfg a := by
  simp only [bufferRace, hb, hs, Bool.true_and]

/-- Both host accesses to an address that does not exist. -/
theorem hostAct_buf_noSuchAddress {s : State} {a : Nat} (ha : 2 ^ s.cfg.addrW ≤ a) (v : Byte) :
    hostAct (.bufRead a) s = .fault .noSuchBufferAddress ∧ hostAct (.bufWrite a v) s = .fault .noSuchBufferAddress := by
  simp only [hostAct, hostBufRead, hostBufWrite, if_pos ha, and_self]

/-- Both host accesses to a byte of the running command's buffer. -/
theorem hostAct_buf_race {s : State} {a : Nat} (ha : a < 2 ^ s.cfg.addrW) (hrace : bufferRace a s = true) (v : Byte) :
    hostAct (.bufRead a) s = .fault .hostBufferRace ∧ hostAct (.bufWrite a v) s = .fault .hostBufferRace := by
  simp only [hostAct, hostBufRead, hostBufWrite, if_neg (not_le.mpr ha), hrace, if_true, and_self]

/-- Both host accesses to any other byte of the buffer memory. -/
theorem hostAct_buf_free {s : State} {a : Nat} (ha : a < 2 ^ s.cfg.addrW) (hrace : bufferRace a s = false) (v : Byte) :
    hostAct (.bufRead a) s = .next { s with readData := (s.mem.get a).setWidth 32 } ∧
      hostAct (.bufWrite a v) s = .next { s with mem := s.mem.set a v } := by
  simp only [hostAct, hostBufRead, hostBufWrite, if_neg (not_le.mpr ha), hrace, Bool.false_eq_true, if_false, and_self]

/-- Settles O55: an access races exactly where the running transfer owns the byte. -/
theorem bufferRaceFaults : Obligations.BufferRaceFaults := by
  intro s a v
  refine ⟨fun ha => hostAct_buf_noSuchAddress ha v, fun hb ha => hostAct_buf_free ha (bufferRace_idle hb a) v, ?_⟩
  intro p hb hs hk ha
  have howns := SeqPos.ownsByte_iff hk ha
  have hrace := bufferRace_running hb hs a
  refine ⟨fun hslot => hostAct_buf_race ha (hrace.trans (howns.mpr hslot)) v, fun hother => ?_⟩
  refine hostAct_buf_free ha (hrace.trans (Bool.eq_false_iff.mpr fun h => ?_)) v
  obtain ⟨i, hi, hai⟩ := howns.mp h
  exact hother i hi hai

/-! The access MEM_OK refuses -/

/-- At a step whose access the memory refuses the controller cannot move, whatever the environment. -/
theorem canMove_refused {s : State} {p : SeqPos} (hs : s.seq = some p) (hfree : s.boundary = .free)
    (hm : memAdmits s.cfg p = false) : s.canMove = false := by
  simp only [State.canMove, hs, hfree, hm, Bool.and_false]
  cases s.env with
  | nil => rfl
  | cons e rest => cases e <;> rfl

/-- Settles O49: the controller cannot move and the host has nothing to do, so the step is the pause's end alone. -/
theorem refusedAccessSticks : Obligations.RefusedAccessSticks := by
  intro s p hadm _ hs hfree hrefused hprog
  have hm : memAdmits s.cfg p = false := by
    obtain ⟨hpc, hno⟩ | ⟨d, hpc, hno⟩ := hrefused <;> simpa only [memAdmits, hpc] using hno
  obtain ⟨e, he⟩ := passPause_eq s
  rw [step_of_not_canMove hadm (canMove_refused hs hfree hm), hostTurn_nil (by rw [passPause_program, hprog]), he]

end Sys2Proof.Machine
end

section
/-! PROOFS. The bus trace only grows (R66): what each operation appends to it. -/

namespace Sys2Proof.Machine

@[simp] theorem loopHead_trace (p : SeqPos) (s : State) : (loopHead p s).trace = s.trace := by
  unfold loopHead
  split
  · rfl
  · split_ifs <;> rfl
  · split_ifs <;> rfl

@[simp] theorem advance_trace (p : SeqPos) (r : PrimOutcome) (s : State) : (advance p r s).trace = s.trace := by
  unfold advance
  split <;> simp only [goto_trace, endTransfer_trace, loopHead_trace]

@[simp] theorem deliver_trace (s : State) : (deliver s).trace = s.trace := by
  unfold deliver
  split
  · exact advance_trace ..
  · rfl

@[simp] theorem busWait_completePhase_trace (u : MicroOp) (s : State) :
    (busWait u (completePhase u) s).trace = s.trace := by
  obtain ⟨st, d, rest, he⟩ | he := answered_or s.env
  · rw [busWait_answer he]
    by_cases hu : u = .stop
    · subst hu; rfl
    · rw [completePhase_eq u hu]
  · rw [busWait_unanswered he]

/-- Every primitive appends its own word (R66). -/
@[simp] theorem performUop_trace (u : MicroOp) (s : State) : (performUop u s).trace = s.trace ++ [u.word] := by
  by_cases hu : u = .stop
  · subst hu; rfl
  · rw [performUop_eq u hu, busWait_completePhase_trace, busIssue_trace]

theorem sequencerStep_trace_prefix (p : SeqPos) (s : State) : s.trace <+: (sequencerStep p s).trace := by
  unfold sequencerStep
  split
  · rw [goto_trace]
  · rw [loopHead_trace]
  · split
    · rw [deliver_trace, performUop_trace]
      exact List.prefix_append ..
    · exact List.prefix_refl _

theorem controllerMove_trace_prefix (s : State) : s.trace <+: (controllerMove s).trace := by
  unfold controllerMove
  split
  · exact List.prefix_refl _
  · split
    · rw [deliver_trace, busWait_completePhase_trace]
    · rw [deliver_trace]
    · exact sequencerStep_trace_prefix ..

theorem runController_trace_prefix (fuel : Nat) (s : State) : s.trace <+: (runController fuel s).trace :=
  runController_induct (P := fun t => s.trace <+: t.trace) (fun t h _ => h.trans (controllerMove_trace_prefix t)) fuel s
    (List.prefix_refl _)

/-- Of the host's actions only a transfer that starts appends to the trace. -/
theorem HostEffect.trace_prefix {s t : State} {a : HostAction} (h : HostEffect s a t) : s.trace <+: t.trace := by
  cases h with
  | transfer kind sla keep =>
    exact runController_trace_prefix (commandMoves s.len) (startCommand (latched kind sla keep .start s) s)
  | _ => exact List.prefix_refl _

/-- Settles O52: a move of the controller and a host action only append to the trace. -/
theorem traceOnlyGrows : Obligations.TraceOnlyGrows := by
  intro s t h
  have hgrows : s.trace <+: t.trace := by
    obtain ⟨-, rfl⟩ | ⟨e, rfl⟩ | ⟨e, a, rest, -, he⟩ := step_cases h
    · exact controllerMove_trace_prefix s
    · exact List.prefix_refl _
    · exact he.trace_prefix
  obtain ⟨sent, hsent⟩ := hgrows
  exact ⟨sent, hsent.symm⟩

end Sys2Proof.Machine
end

section
/-! PROOFS. The words a TRANSMIT or a RECEIVE has sent at each position of the sequencer, whatever the bus answers (R185 to
R194). -/

namespace Sys2Proof.Machine

/-- The data words of a transfer's first k bytes (R185, R190); `m` is the memory the command found. -/
def SeqPos.dataWords (c : Config) (m : Memory) (p : SeqPos) (k : Nat) : List UopWord :=
  match p.kind with
  | .init => []
  | .transmit => writeWords c p.base m k
  | .receive => (List.range k).map (readWord p.len.toNat)

/-- START and the address. -/
def SeqPos.header (p : SeqPos) : List UopWord := [0x100, 0x300 ||| (addrByte p.sla p.kind.dir).setWidth 12]

/-- The trace of a transfer with k data words, up to its end (R187, R194). -/
def SeqPos.wholeTrace (c : Config) (m : Memory) (p : SeqPos) (k : Nat) : List UopWord :=
  p.header ++ p.dataWords c m k ++ (if p.kind = .transmit ∧ p.keep = true then [] else [0x200])

/-- The words a transfer has sent when it comes to position p. -/
def SeqPos.sentBefore (c : Config) (m : Memory) (p : SeqPos) : List UopWord :=
  match p.pc with
  | .configure => []
  | .start => []
  | .waddr => [0x100]
  | .load => p.header ++ p.dataWords c m p.idx.toNat
  | .wbyte _ => p.header ++ p.dataWords c m p.idx.toNat
  | .rbyte => p.header ++ p.dataWords c m p.idx.toNat
  | .store _ => p.header ++ p.dataWords c m (p.idx.toNat + 1)
  | .stop .success => p.header ++ p.dataWords c m p.idx.toNat
  | .stop (.failure _) => p.header ++ p.dataWords c m (p.idx.toNat + 1)

/-- The words it has sent once the micro-operation of position p, if it has one, is issued. -/
def SeqPos.sentThrough (c : Config) (m : Memory) (p : SeqPos) : List UopWord :=
  p.sentBefore c m ++ (p.uop.map MicroOp.word).toList

/-- The positions of the pseudocode (R185, R190), whatever the bus phase; the byte a WBYTE sends is the memory's (R61). -/
def SeqPos.Reached (c : Config) (m : Memory) (p : SeqPos) : Prop :=
  match p.pc with
  | .configure => False
  | .start => p.idx = 0
  | .waddr => p.idx = 0
  | .load => p.kind = .transmit ∧ p.idx < p.len
  | .wbyte d => p.kind = .transmit ∧ p.idx < p.len ∧ d = m.get (p.addr c)
  | .rbyte => p.kind = .receive ∧ p.idx < p.len
  | .store _ => p.kind = .receive ∧ p.idx < p.len
  | .stop .success => p.idx = p.len ∧ ¬(p.kind = .transmit ∧ p.keep = true)
  | .stop (.failure _) => p.kind = .receive ∧ p.idx < p.len

/-- An initial part of the trace with k data words: all n of a TRANSMIT, at least one of a RECEIVE that has any. -/
def SeqPos.InitialPart (c : Config) (m : Memory) (p : SeqPos) (sent : List UopWord) : Prop :=
  ∃ k ≤ p.len.toNat, (p.kind = .transmit → k = p.len.toNat) ∧ (0 < p.len.toNat → 1 ≤ k) ∧
    sent <+: p.wholeTrace c m k

/-- Only STOP has STOP's word (R101 to R106). -/
theorem MicroOp.word_ne_stop (u : MicroOp) (hu : u ≠ .stop) : u.word ≠ 0x200 := by
  cases u with
  | stop => exact absurd rfl hu
  | waddr b => exact (by decide : ∀ b : Byte, 0x300 ||| b.setWidth 12 ≠ (0x200 : UopWord)) b
  | wbyte d => exact (by decide : ∀ d : Byte, 0x400 ||| d.setWidth 12 ≠ (0x200 : UopWord)) d
  | _ => decide

/-- Only the final step sends STOP. -/
theorem SeqPos.pc_ne_stop {p : SeqPos} {u : MicroOp} (hu : p.uop = some u) (hu' : u ≠ .stop) (res : Result) :
    p.pc ≠ .stop res :=
  fun hp => hu' (Option.some.inj (hu.symm.trans (uop_stop hp)))

section
variable {c : Config} {m : Memory} {p : SeqPos}

theorem SeqPos.dataWords_zero : p.dataWords c m 0 = [] := by
  unfold dataWords
  split <;> rfl

theorem SeqPos.dataWords_prefix {j k : Nat} (h : j ≤ k) : p.dataWords c m j <+: p.dataWords c m k := by
  have hrange : List.range j <+: List.range k := by
    rw [← min_eq_left h, ← List.take_range]
    exact List.take_prefix ..
  unfold dataWords
  split
  · exact List.prefix_refl _
  · exact hrange.map _
  · exact hrange.map _

theorem SeqPos.sentThrough_of_uop {u : MicroOp} (hu : p.uop = some u) :
    p.sentThrough c m = p.sentBefore c m ++ [u.word] := by
  rw [sentThrough, hu]
  rfl

theorem SeqPos.sentThrough_of_no_uop (hu : p.uop = none) : p.sentThrough c m = p.sentBefore c m := by
  rw [sentThrough, hu]
  exact List.append_nil _

theorem SeqPos.sentThrough_start (hp : p.pc = .start) : p.sentThrough c m = [0x100] := by
  rw [sentThrough_of_uop (uop_start hp), sentBefore, hp]
  rfl

theorem SeqPos.sentThrough_waddr (hp : p.pc = .waddr) : p.sentThrough c m = p.header := by
  rw [sentThrough_of_uop (uop_waddr hp), sentBefore, hp]
  rfl

/-- A WBYTE sends the data word of its byte (R188). -/
theorem SeqPos.sentThrough_wbyte {d : Byte} (hp : p.pc = .wbyte d) (h : p.Reached c m) :
    p.sentThrough c m = p.header ++ p.dataWords c m (p.idx.toNat + 1) := by
  rw [Reached, hp] at h
  obtain ⟨hk, -, rfl⟩ := h
  rw [sentThrough_of_uop (uop_wbyte hp), sentBefore, hp]
  simp only [dataWords, hk, writeWords, List.range_succ, List.map_append, List.append_assoc]
  rfl

/-- An RBYTE sends the data word of its byte (R194). -/
theorem SeqPos.sentThrough_rbyte (hp : p.pc = .rbyte) (h : p.Reached c m) :
    p.sentThrough c m = p.header ++ p.dataWords c m (p.idx.toNat + 1) := by
  rw [Reached, hp] at h
  obtain ⟨hk, -⟩ := h
  have hword : (if p.ack then MicroOp.rbyteAck else .rbyteNack).word = readWord p.len.toNat p.idx.toNat := by
    simp only [SeqPos.ack, decide_eq_true_eq, readWord]
    split_ifs <;> rfl
  rw [sentThrough_of_uop (uop_rbyte hp), hword, sentBefore, hp]
  simp only [dataWords, hk, List.range_succ, List.map_append, List.append_assoc]
  rfl

/-- An initial part of the trace with all n data words is one. -/
theorem SeqPos.initialPart_of_prefix {sent : List UopWord} (h : sent <+: p.wholeTrace c m p.len.toNat) :
    p.InitialPart c m sent :=
  ⟨p.len.toNat, le_rfl, fun _ => rfl, id, h⟩

theorem SeqPos.initialPart_of_data {k : Nat} (h : k ≤ p.len.toNat) :
    p.InitialPart c m (p.header ++ p.dataWords c m k) :=
  initialPart_of_prefix
    (((List.prefix_append_right_inj _).mpr (dataWords_prefix h)).trans (List.prefix_append ..))

theorem SeqPos.InitialPart.of_prefix {sent sent' : List UopWord} (h : p.InitialPart c m sent) (hpre : sent' <+: sent) :
    p.InitialPart c m sent' := by
  obtain ⟨k, hk, htx, hrx, hsent⟩ := h
  exact ⟨k, hk, htx, hrx, hpre.trans hsent⟩

/-- At every position of the pseudocode, what has been sent is an initial part, its own micro-operation included. A failed
read k ends the trace of k + 1 reads (R192). -/
theorem SeqPos.Reached.sentThrough_initialPart (h : p.Reached c m) : p.InitialPart c m (p.sentThrough c m) := by
  have hin := h
  rw [Reached] at hin
  cases hpc : p.pc with
  | configure => rw [hpc] at hin; exact hin.elim
  | start => rw [sentThrough_start hpc]; exact initialPart_of_prefix ⟨_, rfl⟩
  | waddr =>
    rw [sentThrough_waddr hpc]
    exact (initialPart_of_data (Nat.zero_le _)).of_prefix (List.prefix_append ..)
  | load =>
    rw [hpc] at hin
    obtain ⟨-, hlt⟩ := hin
    rw [sentThrough_of_no_uop (by rw [uop, hpc]), sentBefore, hpc]
    exact initialPart_of_data (by bv_omega)
  | wbyte d =>
    rw [hpc] at hin
    obtain ⟨-, hlt, -⟩ := hin
    rw [sentThrough_wbyte hpc h]
    exact initialPart_of_data (by bv_omega)
  | rbyte =>
    rw [hpc] at hin
    obtain ⟨-, hlt⟩ := hin
    rw [sentThrough_rbyte hpc h]
    exact initialPart_of_data (by bv_omega)
  | store d =>
    rw [hpc] at hin
    obtain ⟨-, hlt⟩ := hin
    rw [sentThrough_of_no_uop (by rw [uop, hpc]), sentBefore, hpc]
    exact initialPart_of_data (by bv_omega)
  | stop res =>
    rw [sentThrough_of_uop (uop_stop hpc), sentBefore, hpc]
    rw [hpc] at hin
    cases res with
    | success =>
      obtain ⟨hidx, hkeep⟩ := hin
      rw [hidx]
      refine initialPart_of_prefix ?_
      rw [wholeTrace, if_neg hkeep]
      exact List.prefix_refl _
    | failure f =>
      obtain ⟨hk, hlt⟩ := hin
      refine ⟨p.idx.toNat + 1, by bv_omega, by simp [hk], by omega, ?_⟩
      rw [wholeTrace, if_neg (by simp [hk])]
      exact List.prefix_refl _

/-- A micro-operation other than STOP does not end the trace of a transfer that frees the bus. -/
theorem SeqPos.sentThrough_ne_wholeTrace {u : MicroOp} (hu : p.uop = some u) (hu' : u ≠ .stop) (hkeep : p.keep = false)
    (k : Nat) : p.sentThrough c m ≠ p.wholeTrace c m k := by
  intro h
  have hlast := congrArg List.getLast? h
  rw [sentThrough_of_uop hu, wholeTrace, if_neg (by simp [hkeep])] at hlast
  simp only [List.getLast?_concat, Option.some.injEq] at hlast
  exact u.word_ne_stop hu' hlast

end

end Sys2Proof.Machine
end

section
/-! PROOFS. The run of a TRANSMIT or a RECEIVE, whatever the bus answers: what it has sent and stored in every state, and how
it ends (R62, R63, R180, R185 to R197). -/

namespace Sys2Proof.Machine

/-! The buffer memory during a transfer -/

/-- What a transfer does to the memory m it found: a TRANSMIT nothing, and neither command writes outside the slots or breaks
the canonical form. -/
structure SeqPos.KeepsMemory (c : Config) (m : Memory) (p : SeqPos) (m' : Memory) : Prop where
  transmit : p.kind = .transmit → m' = m
  wf : m.wf → m'.wf
  other : m.wf → ∀ a, (∀ i < p.len.toNat, a ≠ bufAddr c p.base i) → m'.get a = m.get a

theorem SeqPos.KeepsMemory.refl (c : Config) (m : Memory) (p : SeqPos) : p.KeepsMemory c m m :=
  ⟨fun _ => rfl, id, fun _ _ _ => rfl⟩

/-- A RECEIVE stores a byte in the slot of its index (R63, R190). -/
theorem SeqPos.KeepsMemory.store {c : Config} {m m' : Memory} {p : SeqPos} (h : p.KeepsMemory c m m')
    (hk : p.kind = .receive) (hlt : p.idx < p.len) (d : Byte) : p.KeepsMemory c m (m'.set (p.addr c) d) where
  transmit hk' := absurd (hk.symm.trans hk') (by decide)
  wf hm := Memory.set_wf _ d (h.wf hm)
  other hm a ha := (Memory.get_set_other d (h.wf hm) (ha _ (by bv_omega))).trans (h.other hm a ha)

/-! The states of a running transfer -/

/-- The position is one of the command latched at p₀: only the step and the byte index differ (R38). -/
def SeqPos.SameArgs (p p₀ : SeqPos) : Prop := p = { p₀ with idx := p.idx, pc := p.pc }

theorem SeqPos.SameArgs.kind {p p₀ : SeqPos} (h : p.SameArgs p₀) : p.kind = p₀.kind := by
  rw [h]

theorem SeqPos.SameArgs.keep {p p₀ : SeqPos} (h : p.SameArgs p₀) : p.keep = p₀.keep := by
  rw [h]

theorem SeqPos.SameArgs.initialPart {p p₀ : SeqPos} {c : Config} {m : Memory} {sent : List UopWord} (h : p.SameArgs p₀)
    (hp : p.InitialPart c m sent) : p₀.InitialPart c m sent := by
  rw [h] at hp
  exact hp

theorem SeqPos.SameArgs.keepsMemory {p p₀ : SeqPos} {c : Config} {m m' : Memory} (h : p.SameArgs p₀)
    (hm : p.KeepsMemory c m m') : p₀.KeepsMemory c m m' := by
  rw [h] at hm
  exact { hm with }

theorem SeqPos.SameArgs.wholeTrace {p p₀ : SeqPos} (h : p.SameArgs p₀) (c : Config) (m : Memory) (k : Nat) :
    p.wholeTrace c m k = p₀.wholeTrace c m k := by
  rw [h]
  rfl

/-- The command that started at position p₀ in state s is in progress in state x, with p as its position; what has been
sent, and the boundary, are left open, so that this also holds in the middle of a move. -/
structure InTransfer (s : State) (p₀ p : SeqPos) (x : State) : Prop where
  args : p.SameArgs p₀
  kind : p₀.kind ≠ .init
  busy : x.busy = true
  cfg : x.cfg = s.cfg
  mem : p.KeepsMemory s.cfg s.mem x.mem

/-- The command is between two moves at position p: its micro-operation is still to be issued, or is issued and waits. -/
structure Underway (s : State) (p₀ p : SeqPos) (x : State) : Prop extends InTransfer s p₀ p x where
  seq : x.seq = some p
  reached : p.Reached s.cfg s.mem
  sent : (x.boundary = .free ∧ x.trace = s.trace ++ p.sentBefore s.cfg s.mem) ∨
    ∃ u, x.boundary = .waiting u ∧ p.uop = some u ∧ u ≠ .stop ∧ x.trace = s.trace ++ p.sentThrough s.cfg s.mem

/-- The command has ended, with Success and the whole trace sent, or with a failure that its last micro-operation met or that
a failed read had left for its STOP. -/
structure Ended (s : State) (p₀ : SeqPos) (x : State) : Prop where
  seq : x.seq = none
  mem : p₀.KeepsMemory s.cfg s.mem x.mem
  sent : (x.resFail = false ∧ x.trace = s.trace ++ p₀.wholeTrace s.cfg s.mem p₀.len.toNat) ∨
    (x.resFail = true ∧ ∃ (p : SeqPos) (u : MicroOp), p.SameArgs p₀ ∧ p.Reached s.cfg s.mem ∧ p.uop = some u ∧
      (p.kind = .transmit → u ≠ .stop) ∧ x.trace = s.trace ++ p.sentThrough s.cfg s.mem)

/-- A state of the run of the command. -/
def TransferRun (s : State) (p₀ : SeqPos) (x : State) : Prop := (∃ p, Underway s p₀ p x) ∨ Ended s p₀ x

namespace InTransfer

variable {s y : State} {p₀ p : SeqPos}

/-- An update of other fields stays inside the transfer. -/
theorem of_eq {y' : State} (h : InTransfer s p₀ p y) (hbusy : y'.busy = y.busy := by rfl)
    (hcfg : y'.cfg = y.cfg := by rfl) (hmem : y'.mem = y.mem := by rfl) : InTransfer s p₀ p y' :=
  { h with busy := hbusy.trans h.busy, cfg := hcfg.trans h.cfg, mem := hmem ▸ h.mem }

theorem advanced (h : InTransfer s p₀ p y) (i : Half) (pc : SeqStep) :
    InTransfer s p₀ { p with idx := i, pc := pc } y :=
  { h with args := by rw [h.args]; rfl, mem := { h.mem with } }

theorem goto (h : InTransfer s p₀ p y) (hfree : y.boundary = .free) {pc : SeqStep}
    (hreach : ({ p with pc := pc } : SeqPos).Reached s.cfg s.mem)
    (htr : y.trace = s.trace ++ ({ p with pc := pc } : SeqPos).sentBefore s.cfg s.mem) :
    TransferRun s p₀ (goto p pc y) :=
  .inl ⟨_, { h.advanced p.idx pc with seq := rfl, reached := hreach, sent := .inl ⟨hfree, htr⟩ }⟩

/-- The byte a read received goes to the slot of its index (R63, R190). -/
theorem storeSlot (h : InTransfer s p₀ p y) (hk : p.kind = .receive) (hlt : p.idx < p.len) (d : Byte) :
    InTransfer s p₀ p { y with mem := y.mem.set (p.addr y.cfg) d } :=
  { h with mem := by rw [h.cfg]; exact h.mem.store hk hlt d }

theorem succeed (h : InTransfer s p₀ p y) (htr : y.trace = s.trace ++ p.wholeTrace s.cfg s.mem p.len.toNat) :
    TransferRun s p₀ (endTransfer .success y) := by
  refine .inr ⟨rfl, h.args.keepsMemory h.mem, .inl ⟨rfl, htr.trans ?_⟩⟩
  rw [h.args.wholeTrace, h.args]

theorem fail (h : InTransfer s p₀ p y) {u : MicroOp} (hreach : p.Reached s.cfg s.mem) (hu : p.uop = some u)
    (hstop : p.kind = .transmit → u ≠ .stop) (htr : y.trace = s.trace ++ p.sentThrough s.cfg s.mem) (f : Half) :
    TransferRun s p₀ (endTransfer (.failure f) y) :=
  .inr ⟨rfl, h.args.keepsMemory h.mem, .inr ⟨rfl, p, u, h.args, hreach, hu, hstop, htr⟩⟩

/-- The head of the data loop: the next byte, or the end of the data phases (R185, R187, R190). -/
theorem loopHead (h : InTransfer s p₀ p y) (hfree : y.boundary = .free) (hle : p.idx ≤ p.len)
    (htr : y.trace = s.trace ++ (p.header ++ p.dataWords s.cfg s.mem p.idx.toNat)) :
    TransferRun s p₀ (loopHead p y) := by
  have hend : ¬p.idx < p.len → p.idx = p.len := fun hlt => by bv_omega
  have hkind : p.kind ≠ .init := h.args.kind ▸ h.kind
  unfold Machine.loopHead
  split
  next hk => exact absurd hk hkind
  next hk =>
    split_ifs with hlt hkeep
    · exact h.goto hfree ⟨hk, hlt⟩ htr
    · refine h.succeed (htr.trans ?_)
      rw [SeqPos.wholeTrace, if_pos ⟨hk, hkeep⟩, List.append_nil, hend hlt]
    · exact h.goto hfree ⟨hend hlt, fun hk' => hkeep hk'.2⟩ htr
  next hk =>
    split_ifs with hlt
    · exact h.goto hfree ⟨hk, hlt⟩ htr
    · exact h.goto hfree ⟨hend hlt, by simp [hk]⟩ htr

/-- The head of the data loop after a data byte (R38). -/
theorem nextByte_loopHead (h : InTransfer s p₀ p y) (hfree : y.boundary = .free) (hlt : p.idx < p.len)
    (htr : y.trace = s.trace ++ (p.header ++ p.dataWords s.cfg s.mem (p.idx.toNat + 1))) :
    TransferRun s p₀ (Machine.loopHead p.nextByte y) := by
  obtain ⟨hle, -⟩ := nextByte_bounds hlt
  have hidx : p.nextByte.idx.toNat = p.idx.toNat + 1 := by
    simp only [SeqPos.nextByte]
    bv_omega
  exact (h.advanced (p.idx + 1) p.pc).loopHead hfree hle (by rw [← hidx] at htr; exact htr)

/-- A failure ends the command, but for a failed read, which goes on to STOP (R186, R192, R193). -/
theorem advance_fail (h : InTransfer s p₀ p y) {u : MicroOp} {f : Half} (hfree : y.boundary = .free)
    (hreach : p.Reached s.cfg s.mem) (hu : p.uop = some u) (hu' : u ≠ .stop)
    (htr : y.trace = s.trace ++ p.sentThrough s.cfg s.mem) : TransferRun s p₀ (advance p (.fail f) y) := by
  have hend := h.fail hreach hu (fun _ => hu') htr f
  cases hpc : p.pc with
  | start => simpa only [advance, hpc] using hend
  | waddr => simpa only [advance, hpc] using hend
  | wbyte d => simpa only [advance, hpc] using hend
  | rbyte =>
    rw [SeqPos.sentThrough_rbyte hpc hreach] at htr
    rw [SeqPos.Reached, hpc] at hreach
    simpa only [advance, hpc] using h.goto (pc := .stop (.failure f)) hfree hreach htr
  | stop res => exact absurd hpc (SeqPos.pc_ne_stop hu hu' res)
  | _ => simp [SeqPos.uop, hpc] at hu

/-- A success moves the position on (R185, R190). -/
theorem advance_ok (h : InTransfer s p₀ p y) {u : MicroOp} {r : PrimOutcome} (hr : r.isOk = true)
    (hfree : y.boundary = .free) (hreach : p.Reached s.cfg s.mem) (hu : p.uop = some u) (hu' : u ≠ .stop)
    (hread : p.pc = .rbyte → r ≠ .ok) (htr : y.trace = s.trace ++ p.sentThrough s.cfg s.mem) :
    TransferRun s p₀ (advance p r y) := by
  have hin := hreach
  rw [SeqPos.Reached] at hin
  cases hpc : p.pc with
  | start =>
    rw [hpc] at hin
    rw [SeqPos.sentThrough_start hpc] at htr
    rw [advance_start_ok hpc hr]
    exact h.goto hfree hin htr
  | waddr =>
    rw [hpc] at hin
    rw [SeqPos.sentThrough_waddr hpc] at htr
    rw [advance_waddr_ok hpc hr]
    exact h.loopHead hfree (by bv_omega) (by simpa [show p.idx = 0 from hin, SeqPos.dataWords_zero] using htr)
  | wbyte d =>
    rw [hpc] at hin
    obtain ⟨-, hlt, -⟩ := hin
    rw [SeqPos.sentThrough_wbyte hpc hreach] at htr
    rw [advance_wbyte_ok hpc hr]
    exact h.nextByte_loopHead hfree hlt htr
  | rbyte =>
    rw [hpc] at hin
    rw [SeqPos.sentThrough_rbyte hpc hreach] at htr
    cases r with
    | fail f => cases hr
    | ok => exact absurd rfl (hread hpc)
    | okData d => simpa only [advance, hpc] using h.goto (pc := .store d) hfree hin htr
  | stop res => exact absurd hpc (SeqPos.pc_ne_stop hu hu' res)
  | _ => simp [SeqPos.uop, hpc] at hu

/-- The position takes the outcome of its micro-operation, whatever the answer. -/
theorem advance_phaseOutcome (h : InTransfer s p₀ p y) {u : MicroOp} (hfree : y.boundary = .free)
    (hreach : p.Reached s.cfg s.mem) (hu : p.uop = some u) (hu' : u ≠ .stop)
    (htr : y.trace = s.trace ++ p.sentThrough s.cfg s.mem) (c : Config) (st d : Byte) :
    TransferRun s p₀ (advance p (phaseOutcome c u st d) y) := by
  obtain hok | ⟨f, hf, -⟩ := phaseOutcome_cases hu' c st d
  · refine h.advance_ok hok hfree hreach hu hu' (fun hpc => ?_) htr
    rw [← Option.some.inj ((SeqPos.uop_rbyte hpc).symm.trans hu)]
    split_ifs
    · exact readOutcome_ne_ok c .rbyteAck st d
    · exact readOutcome_ne_ok c .rbyteNack st d
  · rw [hf]
    exact h.advance_fail hfree hreach hu hu' htr

end InTransfer

/-! The moves of the controller -/

namespace Underway

variable {s x : State} {p₀ p : SeqPos}

/-- The step of position p, with no phase in progress. -/
theorem controllerMove_free (h : Underway s p₀ p x) (hfree : x.boundary = .free)
    (htr : x.trace = s.trace ++ p.sentBefore s.cfg s.mem) : TransferRun s p₀ (controllerMove x) := by
  have hin : InTransfer s p₀ p x := h.toInTransfer
  have hthrough : ∀ {u}, p.uop = some u → x.trace ++ [u.word] = s.trace ++ p.sentThrough s.cfg s.mem := fun hu => by
    rw [htr, SeqPos.sentThrough_of_uop hu, List.append_assoc]
  have hsend : ∀ u, p.uop = some u → u ≠ .stop → TransferRun s p₀ (controllerMove x) := by
    intro u hu hu'
    obtain ⟨st, d, rest, he⟩ | he := answered_or x.env
    · rw [controllerMove_answered h.seq hfree hu hu' he]
      exact InTransfer.advance_phaseOutcome hin.of_eq rfl h.reached hu hu' (hthrough hu) x.cfg st d
    · rw [controllerMove_unanswered h.seq hfree hu hu' he]
      exact .inl ⟨p, { hin with seq := h.seq, reached := h.reached, sent := .inr ⟨u, rfl, hu, hu', hthrough hu⟩ }⟩
  have hreach := h.reached
  rw [SeqPos.Reached] at hreach
  cases hpc : p.pc with
  | configure => rw [hpc] at hreach; exact hreach.elim
  | start => exact hsend _ (SeqPos.uop_start hpc) (by simp)
  | waddr => exact hsend _ (SeqPos.uop_waddr hpc) (by simp)
  | load =>
    rw [hpc] at hreach
    obtain ⟨hk, hlt⟩ := hreach
    have hmem : x.mem = s.mem := hin.mem.transmit hk
    rw [controllerMove_load h.seq hfree hpc, hmem, hin.cfg]
    rw [SeqPos.sentBefore, hpc] at htr
    exact hin.goto hfree ⟨hk, hlt, rfl⟩ htr
  | wbyte d => exact hsend _ (SeqPos.uop_wbyte hpc) (by simp)
  | rbyte => exact hsend _ (SeqPos.uop_rbyte hpc) (by split_ifs <;> simp)
  | store d =>
    rw [hpc] at hreach
    obtain ⟨hk, hlt⟩ := hreach
    rw [controllerMove_store h.seq hfree hpc]
    rw [SeqPos.sentBefore, hpc] at htr
    exact (hin.storeSlot hk hlt d).nextByte_loopHead hfree hlt htr
  | stop res =>
    rw [hpc] at hreach
    rw [controllerMove_stop h.seq hfree hpc]
    have htr := hthrough (SeqPos.uop_stop hpc)
    cases res with
    | success =>
      obtain ⟨hidx, hkeep⟩ := hreach
      refine InTransfer.succeed hin.of_eq (htr.trans ?_)
      rw [SeqPos.sentThrough_of_uop (SeqPos.uop_stop hpc), SeqPos.sentBefore, hpc, SeqPos.wholeTrace, if_neg hkeep, hidx]
      rfl
    | failure f =>
      obtain ⟨hk, -⟩ := hreach
      exact InTransfer.fail hin.of_eq h.reached (SeqPos.uop_stop hpc) (by simp [hk]) htr f

/-- Every move of the controller keeps the run. -/
theorem controllerMove (h : Underway s p₀ p x) (hmove : x.canMove = true) : TransferRun s p₀ (controllerMove x) := by
  obtain ⟨hfree, htr⟩ | ⟨u, hw, hu, hu', htr⟩ := h.sent
  · exact h.controllerMove_free hfree htr
  · obtain ⟨st, d, rest, he⟩ | he := answered_or x.env
    · rw [controllerMove_answer h.seq hw hu' he]
      refine InTransfer.advance_phaseOutcome ?_ rfl h.reached hu hu' ?_ x.cfg st d
      · exact h.toInTransfer.of_eq
      · exact htr
    · rw [canMove_unanswered h.seq hw he] at hmove
      cases hmove

end Underway

/-! The run of a command -/

/-- Nothing has been sent or stored where a transfer starts (R180). -/
theorem startCommand_transferRun {s : State} {kind : CmdKind} (hkind : kind ≠ .init) (sla : SlaveAddr) (keep : Bool) :
    TransferRun s (latched kind sla keep .start s) (startCommand (latched kind sla keep .start s) s) :=
  .inl ⟨latched kind sla keep .start s,
    { args := rfl, kind := hkind, busy := rfl, cfg := rfl, mem := .refl .., seq := rfl, reached := rfl
      sent := .inl ⟨rfl, (List.append_nil _).symm⟩ }⟩

theorem TransferRun.controllerMove {s x : State} {p₀ : SeqPos} (h : TransferRun s p₀ x) (hmove : x.canMove = true) :
    TransferRun s p₀ (controllerMove x) := by
  obtain ⟨p, h⟩ | h := h
  · exact h.controllerMove hmove
  · rw [canMove_idle h.seq] at hmove
    cases hmove

/-- A transfer of a configured, idle controller answers a state of its run. -/
theorem runController_transferRun {s : State} {kind : CmdKind} (hkind : kind ≠ .init) (sla : SlaveAddr) (keep : Bool)
    (fuel : Nat) :
    TransferRun s (latched kind sla keep .start s)
      (runController fuel (startCommand (latched kind sla keep .start s) s)) :=
  runController_induct (P := TransferRun s _) (fun _ h hm => h.controllerMove hm) fuel _
    (startCommand_transferRun hkind sla keep)

theorem execTransmit_transferRun {s t : State} {sla : SlaveAddr} {keep : Bool} (hset : s.configured = true)
    (h : exec (.transmit sla keep) s = .next t) : TransferRun s (latched .transmit sla keep .start s) t := by
  simp only [exec, execTransmit, hset, if_true] at h
  split at h
  · cases h
  · cases h
    exact runController_transferRun (by decide) sla keep _

theorem execReceive_transferRun {s t : State} {sla : SlaveAddr} (hset : s.configured = true) (hlen : s.len ≠ 0)
    (h : exec (.receive sla) s = .next t) : TransferRun s (latched .receive sla false .start s) t := by
  simp only [exec, execReceive, hset, hlen, if_true, if_false] at h
  split at h
  · cases h
  · cases h
    exact runController_transferRun (by decide) sla false _

/-- A RECEIVE the controller turns away stores nothing (R183, R191). -/
theorem execReceive_mem {s t : State} {sla : SlaveAddr} (hno : ¬(s.configured = true ∧ s.len ≠ 0))
    (h : exec (.receive sla) s = .next t) : t.mem = s.mem := by
  simp only [exec, execReceive] at h
  split_ifs at h with _ hset hlen
  · cases h; rfl
  · exact absurd ⟨hset, hlen⟩ hno
  · cases h; rfl

/-! What a run has sent and stored -/

namespace TransferRun

variable {s x : State} {p₀ : SeqPos}

theorem keepsMemory (h : TransferRun s p₀ x) : p₀.KeepsMemory s.cfg s.mem x.mem := by
  obtain ⟨p, h⟩ | h := h
  · exact h.args.keepsMemory h.mem
  · exact h.mem

/-- In every state of the run what has been sent is an initial part of a whole trace; with Success it is the whole of the
longest, and with the failure of a TRANSMIT that was to free the bus it is not (R186). -/
theorem sent (h : TransferRun s p₀ x) : ∃ sent, x.trace = s.trace ++ sent ∧ p₀.InitialPart s.cfg s.mem sent ∧
    (x.busy = false → x.resFail = false → sent = p₀.wholeTrace s.cfg s.mem p₀.len.toNat) ∧
    (x.busy = false → p₀.kind = .transmit → p₀.keep = false → sent = p₀.wholeTrace s.cfg s.mem p₀.len.toNat →
      x.resFail = false) := by
  obtain ⟨p, h⟩ | h := h
  · have hbusy : x.busy ≠ false := by rw [h.busy]; decide
    have hpart : p₀.InitialPart s.cfg s.mem (p.sentThrough s.cfg s.mem) :=
      h.args.initialPart h.reached.sentThrough_initialPart
    obtain ⟨-, htr⟩ | ⟨u, -, -, -, htr⟩ := h.sent
    · exact ⟨_, htr, hpart.of_prefix (List.prefix_append ..), fun hb => absurd hb hbusy, fun hb => absurd hb hbusy⟩
    · exact ⟨_, htr, hpart, fun hb => absurd hb hbusy, fun hb => absurd hb hbusy⟩
  · obtain ⟨hok, htr⟩ | ⟨hfail, p, u, hargs, hreach, hu, hstop, htr⟩ := h.sent
    · exact ⟨_, htr, SeqPos.initialPart_of_prefix (List.prefix_refl _), fun _ _ => rfl, fun _ _ _ _ => hok⟩
    · refine ⟨_, htr, hargs.initialPart hreach.sentThrough_initialPart, fun _ hok => ?_, fun _ hk hkeep hwhole => ?_⟩
      · exact absurd (hok.symm.trans hfail) (by decide)
      · have hlast := SeqPos.sentThrough_ne_wholeTrace (c := s.cfg) (m := s.mem) hu (hstop (hargs.kind.trans hk))
          (hargs.keep.trans hkeep) p₀.len.toNat
        rw [hargs.wholeTrace] at hlast
        exact absurd hwhole hlast

end TransferRun

theorem latched_wholeTrace_transmit (c : Config) (m : Memory) (s : State) (sla : SlaveAddr) (keep : Bool) (k : Nat) :
    (latched .transmit sla keep .start s).wholeTrace c m k = transmitTrace c s.buf m k sla keep := by
  cases keep <;> rfl

theorem latched_wholeTrace_receive (c : Config) (m : Memory) (s : State) (sla : SlaveAddr) (k : Nat) :
    (latched .receive sla false .start s).wholeTrace c m k = receiveTrace s.len.toNat sla k := rfl

/-- Settles O35: in every state of the run what has been sent is an initial part of the one whole trace a TRANSMIT has. -/
theorem transmitTraceIsInitialPart : Obligations.TransmitTraceIsInitialPart := by
  intro s t sla keep _ hset h
  have hrun := execTransmit_transferRun hset h
  obtain ⟨sent, htr, ⟨k, -, hk, -, hpre⟩, hok, hfail⟩ := hrun.sent
  rw [hk rfl] at hpre
  simp only [latched_wholeTrace_transmit] at hpre hok hfail
  exact ⟨hrun.keepsMemory.transmit rfl, sent, htr, hpre, hok, fun hb hkeep => hfail hb rfl hkeep⟩

/-- Settles O38: in every state of the run what has been sent is an initial part of the trace of k reads. -/
theorem receiveTraceIsInitialPart : Obligations.ReceiveTraceIsInitialPart := by
  intro s t sla _ hset hlen h
  obtain ⟨sent, htr, ⟨k, hk, -, hpos, hpre⟩, hok, -⟩ := (execReceive_transferRun hset hlen h).sent
  simp only [latched_wholeTrace_receive] at hpre hok
  have hlen0 : 0 < s.len.toNat := by bv_omega
  exact ⟨sent, htr, ⟨k, hpos hlen0, hk, hpre⟩, hok⟩

/-- Settles O39: a RECEIVE that is turned away stores nothing, and one that runs keeps the memory but for its slots. -/
theorem receiveWritesOnlyItsSlots : Obligations.ReceiveWritesOnlyItsSlots := by
  intro s t sla _ hwf h
  by_cases hgo : s.configured = true ∧ s.len ≠ 0
  · obtain ⟨hset, hlen⟩ := hgo
    have hkeeps := (execReceive_transferRun hset hlen h).keepsMemory
    exact ⟨hkeeps.wf hwf, hkeeps.other hwf⟩
  · rw [execReceive_mem hgo h]
    exact ⟨hwf, fun _ _ => rfl⟩

end Sys2Proof.Machine
end

section
/-! PROOFS. The encoding (R90 to R107): the decoder is the encoder's inverse in both formats, the rows' masks, the words of
the micro-operations, and the write of a word that is no command (R98). -/

namespace Sys2Proof.Machine

/-! Command words -/

/-- What the decoder answers (R97): a command exactly when RSV_HI is 0, OP is a command's, and the reserved bits of that
command's operand field are 0. -/
theorem decodeCommand_eq_ok_iff {w : Word} {i : Instr} :
    decodeCommand w = .ok i ↔ w.extractLsb' 16 16 = 0 ∧
      ((w.extractLsb' 12 4 = 1 ∧ w.extractLsb' 3 9 = 0 ∧ .init (w.extractLsb' 0 2) (w.getLsbD 2) = i) ∨
        (w.extractLsb' 12 4 = 2 ∧ w.extractLsb' 8 4 = 0 ∧ .transmit (w.extractLsb' 0 7) (w.getLsbD 7) = i) ∨
        (w.extractLsb' 12 4 = 3 ∧ w.extractLsb' 7 5 = 0 ∧ .receive (w.extractLsb' 0 7) = i)) := by
  unfold decodeCommand
  split_ifs <;> simp_all

theorem encodeCommand_init_iff {mode : ModeBits} {pu : Bool} {w : Word} :
    encodeCommand (.init mode pu) = some w ↔ w.toNat = 0x1000 + pu.toNat * 2 ^ 2 + mode.toNat := by
  rw [encodeCommand, Option.some_inj, eq_comm, ← BitVec.toNat_inj]
  simp only [BitVec.toNat_cast, toNat_append_add, BitVec.toNat_ofBool, BitVec.toNat_ofNat]
  omega

theorem encodeCommand_transmit_iff {sla : SlaveAddr} {keep : Bool} {w : Word} :
    encodeCommand (.transmit sla keep) = some w ↔ w.toNat = 0x2000 + keep.toNat * 2 ^ 7 + sla.toNat := by
  rw [encodeCommand, Option.some_inj, eq_comm, ← BitVec.toNat_inj]
  simp only [BitVec.toNat_cast, toNat_append_add, BitVec.toNat_ofBool, BitVec.toNat_ofNat]
  omega

theorem encodeCommand_receive_iff {sla : SlaveAddr} {w : Word} :
    encodeCommand (.receive sla) = some w ↔ w.toNat = 0x3000 + sla.toNat := by
  rw [encodeCommand, Option.some_inj, eq_comm, ← BitVec.toNat_inj]
  simp only [BitVec.toNat_cast, toNat_append_add, BitVec.toNat_ofNat]
  omega

/-- On command words the decoder is the encoder's inverse. -/
theorem decodeCommand_iff_encodeCommand {w : Word} {i : Instr} : decodeCommand w = .ok i ↔ encodeCommand i = some w := by
  have hw := w.isLt
  simp only [decodeCommand_eq_ok_iff, extract_eq_iff, BitVec.ofNat_eq_ofNat, BitVec.toNat_ofNat]
  cases i with
  | init mode pu =>
    have hmode := mode.isLt
    have hpu := pu.toNat_lt
    simp only [encodeCommand_init_iff, Instr.init.injEq, extract_eq_iff, getLsbD_eq_iff, reduceCtorEq, and_false, or_false]
    omega
  | transmit sla keep =>
    have hsla := sla.isLt
    have hkeep := keep.toNat_lt
    simp only [encodeCommand_transmit_iff, Instr.transmit.injEq, extract_eq_iff, getLsbD_eq_iff, reduceCtorEq, and_false,
      or_false, false_or]
    omega
  | receive sla =>
    have hsla := sla.isLt
    simp only [encodeCommand_receive_iff, Instr.receive.injEq, extract_eq_iff, reduceCtorEq, and_false, false_or]
    omega
  | _ => simp only [encodeCommand, reduceCtorEq, and_false, or_false]

/-- Settles O3: the conditions of R97 under which the decoder answers a command, negated. -/
theorem invalidCommandWords : Obligations.InvalidCommandWords := by
  intro w
  have hok : (∃ i, decodeCommand w = .ok i) ↔ w.extractLsb' 16 16 = 0 ∧
      ((w.extractLsb' 12 4 = 1 ∧ w.extractLsb' 3 9 = 0) ∨ (w.extractLsb' 12 4 = 2 ∧ w.extractLsb' 8 4 = 0) ∨
        (w.extractLsb' 12 4 = 3 ∧ w.extractLsb' 7 5 = 0)) := by
    simp only [decodeCommand_eq_ok_iff, exists_and_left, exists_or, exists_eq', and_true]
  rw [← not_exists, hok]
  simp only [extract_eq_iff, BitVec.ofNat_eq_ofNat, BitVec.toNat_ofNat, ne_eq]
  omega

/-! Micro-op words -/

/-- A micro-op word is its UOP field above its DATA field (R100). -/
theorem uopWord_append (u : UopWord) : u.extractLsb' 8 4 ++ u.extractLsb' 0 8 = u :=
  BitVec.extractLsb'_append_extractLsb' (w := 4) (len := 8)

/-- The word the decoder reads an instruction from is the instruction's (R101 to R106). -/
theorem encodeMicro_of_decodeMicro {u : UopWord} {i : Instr} (h : decodeMicro u = .ok i) : encodeMicro i = some u := by
  rw [← uopWord_append u]
  simp only [decodeMicro] at h
  split_ifs at h with hop hdata hop hdata hop hop hop hdata hop hdata <;> cases h
  · rw [hop, hdata]; rfl
  · rw [hop, hdata]; rfl
  · rw [hop]; rfl
  · rw [hop]; rfl
  · rw [hop, hdata]; rfl
  · rw [hop, hdata]; rfl

theorem decodeMicro_append_waddr (b : Byte) : decodeMicro (3#4 ++ b) = .ok (.waddr b) := by
  simp [decodeMicro, BitVec.extractLsb'_append_eq_left (a := 3#4),
    BitVec.extractLsb'_append_eq_right (a := 3#4) (b := b)]

theorem decodeMicro_append_wbyte (d : Byte) : decodeMicro (4#4 ++ d) = .ok (.wbyte d) := by
  simp [decodeMicro, BitVec.extractLsb'_append_eq_left (a := 4#4),
    BitVec.extractLsb'_append_eq_right (a := 4#4) (b := d)]

/-- On micro-op words the decoder is the encoder's inverse. -/
theorem decodeMicro_iff_encodeMicro {u : UopWord} {i : Instr} : decodeMicro u = .ok i ↔ encodeMicro i = some u := by
  refine ⟨encodeMicro_of_decodeMicro, fun h => ?_⟩
  cases i with
  | waddr b => cases h; exact decodeMicro_append_waddr b
  | wbyte d => cases h; exact decodeMicro_append_wbyte d
  | _ => cases h <;> rfl

/-! Both formats -/

/-- Settles O2: in each format the decoder is the encoder's inverse. -/
theorem encodeOfDecode : Obligations.EncodeOfDecode :=
  ⟨fun _ _ => decodeCommand_iff_encodeCommand.mp, fun _ _ => decodeMicro_iff_encodeMicro.mp⟩

theorem decodeWord_toNat_command (w : Word) : decodeWord 32 w.toNat = decodeCommand w := by
  simp only [decodeWord, w.isLt, BitVec.ofNat_toNat, BitVec.setWidth_eq, if_true, show 16 < 32 by decide]

theorem decodeWord_toNat_micro (u : UopWord) : decodeWord 16 u.toNat = decodeMicro u := by
  simp only [decodeWord, u.isLt, BitVec.ofNat_toNat, BitVec.setWidth_eq, if_true, lt_irrefl, if_false]

/-- A command's encoding is read back at 32 bits. -/
theorem decodeTableWord_of_encodeCommand {i : Instr} {w : Word} (hi : i.isCommand = true) (h : encodeCommand i = some w) :
    decodeTableWord (encodedBits i) (encode i) = some i := by
  simp only [decodeTableWord, encodedBits, hi, if_true, encode, h, decodeWord_toNat_command,
    decodeCommand_iff_encodeCommand.mpr h]

/-- A micro-operation's encoding is read back at 16 bits. -/
theorem decodeTableWord_of_encodeMicro {i : Instr} {u : UopWord} (hi : i.isCommand = false) (hc : encodeCommand i = none)
    (h : encodeMicro i = some u) : decodeTableWord (encodedBits i) (encode i) = some i := by
  simp only [decodeTableWord, encodedBits, hi, Bool.false_eq_true, if_false, encode, hc, h, decodeWord_toNat_micro,
    decodeMicro_iff_encodeMicro.mpr h]

/-- Settles O1: each instruction has an encoding in its own format, from which the decoder reads it back. -/
theorem decodeOfEncode : Obligations.DecodeOfEncode := by
  intro i
  cases i with
  | init | transmit | receive => exact decodeTableWord_of_encodeCommand rfl rfl
  | _ => exact decodeTableWord_of_encodeMicro rfl rfl rfl

/-- Settles O5: each word is the encoding of its instruction, so it decodes to it. -/
theorem decodesTheVectorWords : Obligations.DecodesTheVectorWords := by
  simp only [Obligations.DecodesTheVectorWords, decodeCommand_iff_encodeCommand, decodeMicro_iff_encodeMicro]
  decide

/-! The rows of the opcode table -/

/-- Masking away the low n bits compares the bits above them. -/
theorem and_allOnes_shiftLeft_eq_iff {m n : Nat} {w mask fixed : BitVec m} (hmask : mask = BitVec.allOnes m <<< n)
    (hfixed : fixed.toNat % 2 ^ n = 0) : w &&& mask = fixed ↔ w.toNat / 2 ^ n = fixed.toNat / 2 ^ n := by
  have hlow : w.toNat / 2 ^ n * 2 ^ n < 2 ^ m := (Nat.div_mul_le_self ..).trans_lt w.isLt
  rw [hmask, ← BitVec.shiftLeft_ushiftRight, ← BitVec.toNat_inj, BitVec.toNat_shiftLeft, BitVec.toNat_ushiftRight,
    Nat.shiftLeft_eq, Nat.shiftRight_eq_div_pow, Nat.mod_eq_of_lt hlow,
    Nat.eq_div_iff_mul_eq_left (by positivity) (Nat.dvd_of_mod_eq_zero hfixed), eq_comm]

/-- INIT's mask keeps RSV_HI, OP and the reserved bits 11:3 (R93). -/
theorem and_initMask_iff {w : Word} : w &&& 0xFFFFFFF8#32 = 0x00001000#32 ↔
    w.extractLsb' 16 16 = 0 ∧ w.extractLsb' 12 4 = 1 ∧ w.extractLsb' 3 9 = 0 := by
  have hw := w.isLt
  refine (and_allOnes_shiftLeft_eq_iff (n := 3) rfl rfl).trans ?_
  simp only [extract_eq_iff, BitVec.ofNat_eq_ofNat, BitVec.toNat_ofNat]
  omega

/-- TRANSMIT's mask keeps RSV_HI, OP and the reserved bits 11:8 (R94). -/
theorem and_transmitMask_iff {w : Word} : w &&& 0xFFFFFF00#32 = 0x00002000#32 ↔
    w.extractLsb' 16 16 = 0 ∧ w.extractLsb' 12 4 = 2 ∧ w.extractLsb' 8 4 = 0 := by
  have hw := w.isLt
  refine (and_allOnes_shiftLeft_eq_iff (n := 8) rfl rfl).trans ?_
  simp only [extract_eq_iff, BitVec.ofNat_eq_ofNat, BitVec.toNat_ofNat]
  omega

/-- RECEIVE's mask keeps RSV_HI, OP and the reserved bits 11:7 (R95). -/
theorem and_receiveMask_iff {w : Word} : w &&& 0xFFFFFF80#32 = 0x00003000#32 ↔
    w.extractLsb' 16 16 = 0 ∧ w.extractLsb' 12 4 = 3 ∧ w.extractLsb' 7 5 = 0 := by
  have hw := w.isLt
  refine (and_allOnes_shiftLeft_eq_iff (n := 7) rfl rfl).trans ?_
  simp only [extract_eq_iff, BitVec.ofNat_eq_ofNat, BitVec.toNat_ofNat]
  omega

/-- No word matches two rows: their masks keep OP, and the rows' OPs differ. -/
theorem commandRows_disjoint (w : Word) :
    commandRows.Pairwise fun a b => ¬(a.matchesWord w = true ∧ b.matchesWord w = true) := by
  simp +contextual [commandRows, CommandRow.matchesWord, and_initMask_iff, and_transmitMask_iff, and_receiveMask_iff]

/-- Settles O4: a row's mask keeps the fields the decoder checks, and the operands are the bits it drops. -/
theorem decodeFollowsTable : Obligations.DecodeFollowsTable := by
  refine ⟨fun w => ?_, fun w => ?_, fun w => ?_, commandRows_disjoint⟩
  · rw [and_initMask_iff]
    simp [decodeCommand_eq_ok_iff]
  · rw [and_transmitMask_iff]
    simp [decodeCommand_eq_ok_iff]
  · rw [and_receiveMask_iff]
    simp [decodeCommand_eq_ok_iff]

/-! The words of the micro-operations -/

/-- The word of a micro-operation is the encoding of its row. -/
theorem encodeMicro_toInstr (u : MicroOp) : encodeMicro u.toInstr = some u.word := by
  cases u <;> rfl

/-- Each word of R107 is the encoding of a micro-operation's row: for WADDR and WBYTE, with the word's DATA field. -/
theorem exists_microOp_of_isTraceWord {w : UopWord} (h : isTraceWord w = true) :
    ∃ u : MicroOp, encodeMicro u.toInstr = some w := by
  simp only [isTraceWord, Bool.or_eq_true, beq_iff_eq] at h
  rw [← uopWord_append w]
  obtain ((((rfl | rfl) | hop) | hop) | rfl) | rfl := h
  · exact ⟨.start, rfl⟩
  · exact ⟨.stop, rfl⟩
  · exact ⟨.waddr (w.extractLsb' 0 8), by rw [hop]; rfl⟩
  · exact ⟨.wbyte (w.extractLsb' 0 8), by rw [hop]; rfl⟩
  · exact ⟨.rbyteAck, rfl⟩
  · exact ⟨.rbyteNack, rfl⟩

/-- Settles O6: a micro-operation's word is the encoding of its row, and a legal trace word is the encoding of some
micro-operation's row. -/
theorem traceWordsAreEncodings : Obligations.TraceWordsAreEncodings := by
  refine ⟨fun u => ⟨encodeMicro_toInstr u, u.word_isTraceWord⟩, fun w h => ?_⟩
  obtain ⟨u, hu⟩ := exists_microOp_of_isTraceWord h
  exact ⟨u, Option.some.inj ((encodeMicro_toInstr u).symm.trans hu)⟩

/-! A word that is no command -/

/-- The end of an invalid word on an idle controller writes RESULT and nothing else (R98). -/
theorem badCommand_of_idle {s : State} (h : s.Idle) : badCommand s = { s with resFail := true, resCode := 0x0103 } := by
  obtain ⟨hbusy, hseq, -⟩ := h
  simp only [badCommand, endCommand, setResult, hbusy, hseq]
  rfl

theorem writeCommand_of_invalid {w : Word} (h : ∀ i, decodeCommand w ≠ .ok i) (s : State) :
    writeCommand w s = .next (badCommand s) := by
  unfold writeCommand
  split
  next i hi => exact absurd hi (h i)
  · rfl

/-- Settles O16: an idle controller leaves the turn to the host, whose write to CMD ends at once. -/
theorem invalidWordFails : Obligations.InvalidWordFails := by
  intro s w rest hidle hadm hprog hinvalid
  have hidle' : State.Idle { s with program := rest } := ⟨hidle.notBusy, hidle.noPosition, hidle.noPhase⟩
  rw [step_of_not_canMove hadm (canMove_idle hidle.noPosition), passPause_idle hidle.noPosition, hostTurn_cons hprog]
  exact (hostAct_write_cmd hidle'.notBusy).trans (by rw [writeCommand_of_invalid hinvalid, badCommand_of_idle hidle'])

end Sys2Proof.Machine
end

section
/-! PROOFS. The bus primitives (40_bus_primitives.md): the address byte, each primitive when it is answered, a step that sends
a micro-operation, an answer that comes late, and a transfer whose START or address phase fails (R121 to R131, R186, R193). -/

namespace Sys2Proof.Machine

/-! The address byte -/

/-- The address byte is the slave address above the direction bit (R122). -/
theorem addrByte_eq_append (sla : SlaveAddr) (dir : Bool) : addrByte sla dir = sla ++ BitVec.ofBool dir := by
  rw [BitVec.append_def, BitVec.shiftLeftZeroExtend_eq, BitVec.setWidth'_eq]
  rfl

theorem addrByte_getLsbD_zero (sla : SlaveAddr) (dir : Bool) : (addrByte sla dir).getLsbD 0 = dir := by
  rw [addrByte_eq_append, BitVec.getLsbD_append]
  exact BitVec.getLsbD_ofBool dir 0

/-- Settles O7: the byte is the slave address above the direction bit. -/
theorem addressByteLayout : Obligations.AddressByteLayout := by
  intro sla dir
  refine ⟨?_, addrByte_getLsbD_zero sla dir⟩
  rw [addrByte_eq_append]
  exact BitVec.extractLsb'_append_eq_left

/-! The outcome of an answer (R124 to R131, R162) -/

section
variable {c : StatusCodes} {k : PrimKind} {st : Byte}

theorem statusOk_start_iff : statusOk c .start st = true ↔ st = c.start ∨ st = c.repStart := by
  simp only [statusOk, Bool.or_eq_true, beq_iff_eq]

theorem statusOk_waddrKind_iff {b : Byte} :
    statusOk c (waddrKind b) st = true ↔ st = if b.getLsbD 0 then c.mrSlaAck else c.mtSlaAck := by
  unfold waddrKind
  split_ifs <;> exact beq_iff_eq

theorem statusOk_wbyte_iff : statusOk c .wbyte st = true ↔ st = c.mtDataAck := beq_iff_eq

theorem statusOk_rbyteAck_iff : statusOk c .rbyteAck st = true ↔ st = c.mrDataAck := beq_iff_eq

theorem statusOk_rbyteNack_iff : statusOk c .rbyteNack st = true ↔ st = c.mrDataNack := beq_iff_eq

theorem translateStatus_of_not_ok (h : ¬statusOk c k st = true) : translateStatus c k st = .fail (st.setWidth 16) := by
  rw [translateStatus, if_neg h]

end

section
variable {c : Config} {k : PrimKind} {st : Byte}

theorem readOutcome_of_ok (h : statusOk c.codes k st = true) (d : Byte) : readOutcome c k st d = .okData d := by
  rw [readOutcome, translateStatus_of_ok h]

theorem readOutcome_of_not_ok (h : ¬statusOk c.codes k st = true) (hl : c.legacyRead = false) (d : Byte) :
    readOutcome c k st d = .fail (st.setWidth 16) := by
  simp only [readOutcome, translateStatus_of_not_ok h, hl, Bool.false_eq_true, if_false]

/-- With LEGACY_READ_DEFECT an unexpected status is taken for the data byte (R131). -/
theorem readOutcome_legacy (h : ¬statusOk c.codes k st = true) (hl : c.legacyRead = true) (d : Byte) :
    readOutcome c k st d = .okData st := by
  simp only [readOutcome, translateStatus_of_not_ok h, hl, if_true]

end

/-! A primitive that is answered (R123) -/

section
variable {s : State} {u : MicroOp} {st d : Byte}

/-- An answered primitive completes the phase once its word is issued. -/
theorem exec_toInstr_answered {rest : List EnvEvent} (hu : u ≠ .stop) (he : s.env = .answer st d :: rest) :
    exec u.toInstr s = .next (completePhase u st d { s with env := rest, trace := s.trace ++ [u.word] }) := by
  rw [exec_toInstr, performUop_eq u hu, busWait_answer (s := busIssue u s) he]
  rfl

/-- A phase that succeeds sets LAST_RAW, the bus phase, and, for START, BUS_OPEN. -/
theorem completePhase_ok {r : PrimOutcome} (hu : u ≠ .stop) (hr : phaseOutcome s.cfg u st d = r) (hok : r.isOk = true) :
    completePhase u st d s = { s with
      lastRaw := st, boundary := .done r, busOpen := if u = .start then true else s.busOpen,
      phase := phaseAfter u s.phase } := by
  simp only [completePhase_eq u hu, hr, hok, true_and, if_true]

/-- A phase that fails sets LAST_RAW only. -/
theorem completePhase_fail {f : Half} (hu : u ≠ .stop) (hr : phaseOutcome s.cfg u st d = .fail f) :
    completePhase u st d s = { s with lastRaw := st, boundary := .done (.fail f) } := by
  have hfail : (PrimOutcome.fail f).isOk = false := rfl
  simp only [completePhase_eq u hu, hr, hfail, Bool.false_eq_true, false_and, if_false]

theorem exec_toInstr_ok {rest : List EnvEvent} {r : PrimOutcome} (hu : u ≠ .stop) (he : s.env = .answer st d :: rest)
    (hr : phaseOutcome s.cfg u st d = r) (hok : r.isOk = true) :
    exec u.toInstr s = .next { s with
      env := rest, trace := s.trace ++ [u.word], lastRaw := st, boundary := .done r,
      busOpen := if u = .start then true else s.busOpen, phase := phaseAfter u s.phase } := by
  rw [exec_toInstr_answered hu he]
  exact congrArg _ (completePhase_ok hu hr hok)

theorem exec_toInstr_fail {rest : List EnvEvent} {f : Half} (hu : u ≠ .stop) (he : s.env = .answer st d :: rest)
    (hr : phaseOutcome s.cfg u st d = .fail f) :
    exec u.toInstr s = .next { s with
      env := rest, trace := s.trace ++ [u.word], lastRaw := st, boundary := .done (.fail f) } := by
  rw [exec_toInstr_answered hu he]
  exact congrArg _ (completePhase_fail hu hr)

end

/-- Settles O24: the translator accepts the two START codes, and only a success sets BUS_OPEN and the phase. -/
theorem startPrimitive : Obligations.StartPrimitive := by
  intro s st d rest he
  refine ⟨fun hst => ?_, fun h h' => ?_⟩
  · exact exec_toInstr_ok (u := .start) (by decide) he (translateStatus_of_ok (statusOk_start_iff.mpr hst)) rfl
  · have hbad : ¬statusOk s.cfg.codes .start st = true := by simp [statusOk_start_iff, h, h']
    exact exec_toInstr_fail (u := .start) (by decide) he (translateStatus_of_not_ok hbad)

/-- Settles O25: STOP is issued and done at once. -/
theorem stopPrimitive : Obligations.StopPrimitive := fun s => exec_toInstr .stop s

/-- Settles O26: the direction bit chooses the one code the translator accepts. -/
theorem waddrPrimitive : Obligations.WaddrPrimitive := by
  intro s b st d rest he
  refine ⟨fun hst => ?_, fun hst => ?_⟩
  · exact exec_toInstr_ok (u := .waddr b) (by simp) he (translateStatus_of_ok (statusOk_waddrKind_iff.mpr hst)) rfl
  · exact exec_toInstr_fail (u := .waddr b) (by simp) he (translateStatus_of_not_ok (statusOk_waddrKind_iff.not.mpr hst))

/-- Settles O27: the translator accepts MT_DATA_ACK alone. -/
theorem wbytePrimitive : Obligations.WbytePrimitive := by
  intro s b st d rest he
  refine ⟨fun hst => ?_, fun hst => ?_⟩
  · exact exec_toInstr_ok (u := .wbyte b) (by simp) he (translateStatus_of_ok (statusOk_wbyte_iff.mpr hst)) rfl
  · exact exec_toInstr_fail (u := .wbyte b) (by simp) he (translateStatus_of_not_ok (statusOk_wbyte_iff.not.mpr hst))

/-- Settles O28: the three outcomes of a read, with MR_DATA_ACK the expected status. -/
theorem rbyteAckPrimitive : Obligations.RbyteAckPrimitive := by
  intro s st d rest he
  refine ⟨fun hst => ?_, fun hst hl => ?_, fun hst hl => ?_⟩
  · exact exec_toInstr_ok (u := .rbyteAck) (by decide) he (readOutcome_of_ok (statusOk_rbyteAck_iff.mpr hst) d) rfl
  · exact exec_toInstr_fail (u := .rbyteAck) (by decide) he
      (readOutcome_of_not_ok (statusOk_rbyteAck_iff.not.mpr hst) hl d)
  · exact exec_toInstr_ok (u := .rbyteAck) (by decide) he
      (readOutcome_legacy (statusOk_rbyteAck_iff.not.mpr hst) hl d) rfl

/-- Settles O29: the three outcomes of a read, with MR_DATA_NACK the expected status. -/
theorem rbyteNackPrimitive : Obligations.RbyteNackPrimitive := by
  intro s st d rest he
  refine ⟨fun hst => ?_, fun hst hl => ?_, fun hst hl => ?_⟩
  · exact exec_toInstr_ok (u := .rbyteNack) (by decide) he (readOutcome_of_ok (statusOk_rbyteNack_iff.mpr hst) d) rfl
  · exact exec_toInstr_fail (u := .rbyteNack) (by decide) he
      (readOutcome_of_not_ok (statusOk_rbyteNack_iff.not.mpr hst) hl d)
  · exact exec_toInstr_ok (u := .rbyteNack) (by decide) he
      (readOutcome_legacy (statusOk_rbyteNack_iff.not.mpr hst) hl d) rfl

/-! The step that sends a micro-operation, and the step that takes a late answer -/

/-- Settles O46: the controller can move, and its move is the primitive with the taking of its outcome. -/
theorem stepRunsMicroOp : Obligations.StepRunsMicroOp := by
  intro s p u hadm hs hfree hu hhold
  obtain ⟨hmem, hpc⟩ := memAdmits_of_uop hu s.cfg
  have hmove : s.canMove = true := canMove_free hs hfree hpc hmem fun h => by
    obtain ⟨rest, he⟩ := List.head?_eq_some_iff.mp h
    exact hhold rest he
  exact ⟨_, exec_toInstr u s, by rw [step_of_canMove hadm hmove, controllerMove_free hs hfree, sequencerStep_uop hu]⟩

/-- The step that takes an answer completes the phase in progress. -/
theorem step_answer {s : State} {p : SeqPos} {u : MicroOp} {st d : Byte} {rest : List EnvEvent}
    (hadm : s.cfg.admissible = true) (hs : s.seq = some p) (hw : s.boundary = .waiting u)
    (he : s.env = .answer st d :: rest) : step s = .next (deliver (completePhase u st d { s with env := rest })) := by
  have hmove : s.canMove = true := by simp only [State.canMove, hs, hw, he]
  rw [step_of_canMove hadm hmove, controllerMove_waiting hs hw, busWait_answer he]

/-- A phase that completes overwrites what stood at the boundary. -/
theorem completePhase_boundary {u : MicroOp} (hu : u ≠ .stop) (st d : Byte) (b : Boundary) (s : State) :
    completePhase u st d { s with boundary := b } = completePhase u st d s := by
  simp only [completePhase_eq u hu]

/-- Settles O47: the phase completes in the waiting state, which differs from the one an immediate answer completes it in by
the boundary alone. -/
theorem lateAnswerCompletesThePhase : Obligations.LateAnswerCompletesThePhase := by
  intro s w t u st d rest hadm hseq hu henv hw ht
  obtain ⟨p, hs⟩ := Option.isSome_iff_exists.mp hseq
  cases (unansweredPrimitiveWaits s u hu henv).symm.trans hw
  cases (exec_toInstr_answered hu rfl).symm.trans ht
  rw [← completePhase_boundary hu st d (.waiting u)]
  exact step_answer hadm hs rfl rfl

/-! A transfer whose START or address phase fails (R186, R193) -/

section
variable {s : State} {p : SeqPos} {u : MicroOp} {st d : Byte} {rest : List EnvEvent}

/-- A step whose micro-operation is answered with success. -/
theorem controllerMove_answered_ok {r : PrimOutcome} (hs : s.seq = some p) (hb : s.boundary = .free) (hu : p.uop = some u)
    (hu' : u ≠ .stop) (he : s.env = .answer st d :: rest) (hr : phaseOutcome s.cfg u st d = r) (hok : r.isOk = true) :
    controllerMove s = advance p r { s with
      env := rest, trace := s.trace ++ [u.word], lastRaw := st, boundary := .free,
      busOpen := if u = .start then true else s.busOpen, phase := phaseAfter u s.phase } := by
  simp only [controllerMove_answered hs hb hu hu' he, hr, hok, true_and, if_true]

/-- A step whose micro-operation is answered with failure. -/
theorem controllerMove_answered_fail {f : Half} (hs : s.seq = some p) (hb : s.boundary = .free) (hu : p.uop = some u)
    (hu' : u ≠ .stop) (he : s.env = .answer st d :: rest) (hr : phaseOutcome s.cfg u st d = .fail f) :
    controllerMove s = advance p (.fail f) { s with
      env := rest, trace := s.trace ++ [u.word], lastRaw := st, boundary := .free } := by
  have hfail : (PrimOutcome.fail f).isOk = false := rfl
  simp only [controllerMove_answered hs hb hu hu' he, hr, hfail, Bool.false_eq_true, false_and, if_false]

/-- A position that sends a micro-operation can move where the answer is there. -/
theorem canMove_answered (hs : s.seq = some p) (hb : s.boundary = .free) (hu : p.uop = some u)
    (he : s.env = .answer st d :: rest) : s.canMove = true := by
  obtain ⟨hmem, hpc⟩ := memAdmits_of_uop hu s.cfg
  exact canMove_free hs hb hpc hmem (by simp [he])

/-- A failed START or address ends the command at once (R186, R193). -/
theorem advance_header_fail (hp : p.pc = .start ∨ p.pc = .waddr) (f : Half) (s : State) :
    advance p (.fail f) s = endTransfer (.failure f) s := by
  obtain hp | hp := hp <;> simp only [advance, hp]

/-- A failed START or address of a command that found an idle controller ends it where it stands: RESULT is written, and a
bus still held is Open (R39, R181, R186, R193). -/
theorem runController_startCommand_fail {f : Half} (fuel : Nat) (hidle : s.Idle) (hp : p.pc = .start ∨ p.pc = .waddr)
    (hu : p.uop = some u) (hu' : u ≠ .stop) (he : s.env = .answer st d :: rest)
    (hr : phaseOutcome s.cfg u st d = .fail f) :
    runController (fuel + 1) (startCommand p s) = { s with
      env := rest, trace := s.trace ++ [u.word], lastRaw := st, resFail := true, resCode := f,
      phase := s.phase.atEnd } := by
  have hmove : controllerMove (startCommand p s) = endTransfer (.failure f) (startCommand p { s with
      env := rest, trace := s.trace ++ [u.word], lastRaw := st }) := by
    rw [controllerMove_answered_fail (s := startCommand p s) rfl rfl hu hu' he hr, advance_header_fail hp]
    rfl
  rw [runController_step (canMove_answered (s := startCommand p s) rfl rfl hu he), hmove,
    runController_idle (endTransfer_seq ..)]
  obtain ⟨hbusy, hseq, hfree⟩ := hidle
  simp only [endTransfer, endCommand, setResult, startCommand, Result.failBit, Result.code, hbusy, hseq, hfree]

theorem runController_startFails (fuel : Nat) (hidle : s.Idle) (hp : p.pc = .start) (he : s.env = .answer st d :: rest)
    (hst : ¬statusOk s.cfg.codes .start st = true) :
    runController (fuel + 1) (startCommand p s) = { s with
      env := rest, trace := s.trace ++ [0x100], lastRaw := st, resFail := true, resCode := st.setWidth 16,
      phase := s.phase.atEnd } :=
  runController_startCommand_fail (u := .start) fuel hidle (.inl hp) (SeqPos.uop_start hp) (by decide) he
    (translateStatus_of_not_ok hst)

theorem runController_waddrFails (fuel : Nat) (hidle : s.Idle) (hp : p.pc = .waddr) (he : s.env = .answer st d :: rest)
    (hst : st ≠ if p.kind.dir then s.cfg.codes.mrSlaAck else s.cfg.codes.mtSlaAck) :
    runController (fuel + 1) (startCommand p s) = { s with
      env := rest, trace := s.trace ++ [0x300 ||| (addrByte p.sla p.kind.dir).setWidth 12], lastRaw := st,
      resFail := true, resCode := st.setWidth 16, phase := s.phase.atEnd } := by
  have hbad : ¬statusOk s.cfg.codes (waddrKind (addrByte p.sla p.kind.dir)) st = true := by
    rwa [statusOk_waddrKind_iff, addrByte_getLsbD_zero]
  exact runController_startCommand_fail (u := .waddr _) fuel hidle (.inr hp) (SeqPos.uop_waddr hp) (by simp) he
    (translateStatus_of_not_ok hbad)

/-- A START that succeeds brings a command to its address step (R124). -/
theorem runController_startCommand_started (fuel : Nat) (hp : p.pc = .start) (he : s.env = .answer st d :: rest)
    (hst : st = s.cfg.codes.start ∨ st = s.cfg.codes.repStart) :
    runController (fuel + 1) (startCommand p s) = runController fuel (startCommand { p with pc := .waddr } { s with
      env := rest, trace := s.trace ++ [0x100], lastRaw := st, busOpen := true, phase := .started }) := by
  have hok : phaseOutcome s.cfg .start st d = .ok := translateStatus_of_ok (statusOk_start_iff.mpr hst)
  have hu := SeqPos.uop_start hp
  rw [runController_step (canMove_answered (s := startCommand p s) rfl rfl hu he),
    controllerMove_answered_ok (s := startCommand p s) rfl rfl hu (by decide) he hok rfl, advance_start_ok hp rfl]
  rfl

/-- A command whose START succeeds and whose address fails: two moves, and the bus is left Open (R31, R39). -/
theorem runController_addressFails {bad y : Byte} (fuel : Nat) (hidle : s.Idle) (hp : p.pc = .start)
    (he : s.env = .answer st d :: .answer bad y :: rest) (hst : st = s.cfg.codes.start ∨ st = s.cfg.codes.repStart)
    (hbad : bad ≠ if p.kind.dir then s.cfg.codes.mrSlaAck else s.cfg.codes.mtSlaAck) :
    runController (fuel + 1 + 1) (startCommand p s) = { s with
      env := rest, resFail := true, resCode := bad.setWidth 16, lastRaw := bad, busOpen := true, phase := .openHeld,
      trace := s.trace ++ [0x100, 0x300 ||| (addrByte p.sla p.kind.dir).setWidth 12] } := by
  have hidle' : State.Idle { s with
      env := .answer bad y :: rest, trace := s.trace ++ [0x100], lastRaw := st, busOpen := true, phase := .started } :=
    ⟨hidle.notBusy, hidle.noPosition, hidle.noPhase⟩
  rw [runController_startCommand_started _ hp he hst,
    runController_waddrFails (p := { p with pc := .waddr }) _ hidle' rfl rfl hbad, List.append_assoc]
  rfl

end

/-- A command has moves for its START and its address. -/
theorem commandMoves_eq (n : Half) : commandMoves n = 2 * n.toNat + 1 + 1 + 1 := rfl

theorem execTransmit_runs {s : State} (hbusy : s.busy = false) (hset : s.configured = true) (sla : SlaveAddr)
    (keep : Bool) : exec (.transmit sla keep) s =
      .next (runController (commandMoves s.len) (startCommand (latched .transmit sla keep .start s) s)) := by
  simp only [exec, execTransmit, hbusy, hset, Bool.false_eq_true, if_false, if_true]

theorem execReceive_runs {s : State} (hbusy : s.busy = false) (hset : s.configured = true) (hlen : s.len ≠ 0)
    (sla : SlaveAddr) : exec (.receive sla) s =
      .next (runController (commandMoves s.len) (startCommand (latched .receive sla false .start s) s)) := by
  simp only [exec, execReceive, hbusy, hset, hlen, Bool.false_eq_true, if_false, if_true]

theorem BusPhase.atEnd_of_resting {ph : BusPhase} (h : ph.resting = true) : ph.atEnd = ph := by
  revert h
  cases ph <;> decide

/-- Settles O33: START's failure is the command's, and a resting phase stays as it is. -/
theorem startFailureEndsCommand : Obligations.StartFailureEndsCommand := by
  intro s i bad x rest hidle hset hrest hi hst hrep he
  have hbad : ¬statusOk s.cfg.codes .start bad = true := by simp [statusOk_start_iff, hst, hrep]
  have hrun : ∀ kind sla keep, runController (commandMoves s.len) (startCommand (latched kind sla keep .start s) s) =
      { s with
        env := rest, resFail := true, resCode := bad.setWidth 16, lastRaw := bad, trace := s.trace ++ [0x100] } := by
    intro kind sla keep
    rw [commandMoves_eq, runController_startFails _ hidle rfl he hbad, BusPhase.atEnd_of_resting hrest]
  obtain ⟨sla, keep, rfl⟩ | ⟨sla, rfl, hlen⟩ := hi
  · rw [execTransmit_runs hidle.notBusy hset, hrun]
  · rw [execReceive_runs hidle.notBusy hset hlen, hrun]

/-- Settles O34: after a START that succeeds the address's failure is the command's, for either direction. -/
theorem addressFailureEndsCommand : Obligations.AddressFailureEndsCommand := by
  intro s sla keep st x bad y rest hidle hset hst he
  refine ⟨fun hbad => ?_, fun hbad hlen => ?_⟩
  · rw [execTransmit_runs hidle.notBusy hset, commandMoves_eq]
    exact congrArg _ (runController_addressFails _ hidle rfl he hst hbad)
  · rw [execReceive_runs hidle.notBusy hset hlen, commandMoves_eq]
    exact congrArg _ (runController_addressFails _ hidle rfl he hst hbad)

end Sys2Proof.Machine
end

section
/-! PROOFS. The status translator (41_status_translator.md): its two answers, the statuses the default codes accept, and
raw statuses against the synthetic failure codes (R160 to R163, R165, R241). -/

namespace Sys2Proof.Machine

/-! The translator's two answers (R162) -/

theorem translateStatus_eq_ok_iff {c : StatusCodes} {k : PrimKind} {st : Byte} :
    translateStatus c k st = .ok ↔ statusOk c k st = true := by
  refine ⟨fun h => ?_, translateStatus_of_ok⟩
  rw [← translateStatus_isOk, h]
  rfl

theorem statusOk_waddrW_iff {c : StatusCodes} {st : Byte} : statusOk c .waddrW st = true ↔ st = c.mtSlaAck := beq_iff_eq

theorem statusOk_waddrR_iff {c : StatusCodes} {st : Byte} : statusOk c .waddrR st = true ↔ st = c.mrSlaAck := beq_iff_eq

/-- Settles O20: OK is a status the kind accepts, which each kind's own lemma names, and the other answer is FAIL. -/
theorem translatorOutcome : Obligations.TranslatorOutcome := by
  intro c k st
  refine ⟨translateStatus_eq_ok_iff.trans ?_, fun h => translateStatus_of_not_ok (mt translateStatus_of_ok h)⟩
  cases k with
  | start => exact statusOk_start_iff
  | waddrW => exact statusOk_waddrW_iff
  | waddrR => exact statusOk_waddrR_iff
  | wbyte => exact statusOk_wbyte_iff
  | rbyteAck => exact statusOk_rbyteAck_iff
  | rbyteNack => exact statusOk_rbyteNack_iff

/-- Settles O21: the translator's outcome (O20) at the codes of R160. -/
theorem defaultCodesOutcomeTable : Obligations.DefaultCodesOutcomeTable := by
  intro st
  have accepts := fun k => (translatorOutcome .avr k st).left
  have fails := fun k => (translatorOutcome .avr k st).right
  exact ⟨accepts .start, accepts .waddrW, accepts .waddrR, accepts .wbyte, accepts .rbyteAck, accepts .rbyteNack, fails⟩

/-! Raw statuses and synthetic codes (R161, R241) -/

theorem toNat_setWidth_status_lt (st : Byte) : (st.setWidth 16).toNat < 0x100 := by
  rw [BitVec.toNat_setWidth]
  omega

theorem le_toNat_of_synthetic {c : Half} (h : c ∈ [errConfig, errLength, errNotConfigured, errBadCommand]) :
    0x100 ≤ c.toNat := by
  simp only [List.mem_cons, List.not_mem_nil, or_false] at h
  obtain rfl | rfl | rfl | rfl := h <;> decide

/-- Settles O23: a status zero-extended is below 0x100, and every synthetic code is at least 0x100. -/
theorem rawCodesAreNotSynthetic : Obligations.RawCodesAreNotSynthetic := by
  intro st c hc heq
  have hlow := toNat_setWidth_status_lt st
  have hhigh := le_toNat_of_synthetic hc
  rw [heq] at hlow
  omega

end Sys2Proof.Machine
end

section
/-! PROOFS. What the sequencer answers before any bus activity (R183, R191), and the arguments a running command has latched
(R38, R76, R180): every move commutes with other values in BUF and LEN. -/

namespace Sys2Proof.Machine

/-! A transfer the controller turns away -/

/-- A command that an idle controller turns away leaves RESULT and nothing else (R181, R183, R191). -/
theorem endCommand_startCommand_of_idle {s : State} (h : s.Idle) (p : SeqPos) (f : Half) :
    endCommand (.failure f) (startCommand p s) = { s with resFail := true, resCode := f } := by
  obtain ⟨hbusy, hseq, hfree⟩ := h
  simp only [endCommand, setResult, startCommand, Result.failBit, Result.code, hbusy, hseq, hfree]

/-- Settles O17: CONFIGURED is looked at before LEN, and either command ends with the failure of R183. -/
theorem transferBeforeInitFails : Obligations.TransferBeforeInitFails := by
  intro s sla keep hidle hset
  simp only [exec, execTransmit, execReceive, hidle.notBusy, hset, Bool.false_eq_true, if_false,
    endCommand_startCommand_of_idle hidle, errNotConfigured, and_self]

/-- Settles O18: the check of LEN follows that of CONFIGURED, and the command ends there. -/
theorem receiveLengthZeroFails : Obligations.ReceiveLengthZeroFails := by
  intro s sla hidle hset hlen
  simp only [exec, execReceive, hidle.notBusy, hset, hlen, Bool.false_eq_true, if_false, if_true,
    endCommand_startCommand_of_idle hidle, errLength]

/-! The latched arguments -/

/-- The state with other values in BUF and LEN. -/
def State.withArgs (b : Word) (n : Half) (s : State) : State := { s with buf := b, len := n }

section
variable (b : Word) (n : Half) (s : State)

theorem goto_withArgs (p : SeqPos) (pc : SeqStep) : goto p pc (s.withArgs b n) = (goto p pc s).withArgs b n := rfl

theorem endTransfer_withArgs (r : Result) : endTransfer r (s.withArgs b n) = (endTransfer r s).withArgs b n := rfl

theorem loopHead_withArgs (p : SeqPos) : loopHead p (s.withArgs b n) = (loopHead p s).withArgs b n := by
  unfold loopHead
  split
  · rfl
  · split_ifs
    · exact goto_withArgs ..
    · exact endTransfer_withArgs ..
    · exact goto_withArgs ..
  · split_ifs <;> exact goto_withArgs ..

theorem advance_withArgs (p : SeqPos) (r : PrimOutcome) :
    advance p r (s.withArgs b n) = (advance p r s).withArgs b n := by
  unfold advance
  split <;> simp only [goto_withArgs, endTransfer_withArgs, loopHead_withArgs]

theorem deliver_withArgs : deliver (s.withArgs b n) = (deliver s).withArgs b n := by
  cases hs : s.seq with
  | none => rw [deliver_idle hs, deliver_idle (s := s.withArgs b n) hs]
  | some p =>
    cases hb : s.boundary with
    | done r =>
      rw [deliver_done hs hb, deliver_done (s := s.withArgs b n) hs hb]
      exact advance_withArgs b n { s with boundary := .free } p r
    | _ =>
      have hnot : ∀ r, s.boundary ≠ .done r := by simp [hb]
      rw [deliver_not_done hnot, deliver_not_done (s := s.withArgs b n) hnot]

theorem completePhase_withArgs (u : MicroOp) (st d : Byte) :
    completePhase u st d (s.withArgs b n) = (completePhase u st d s).withArgs b n := by
  by_cases hu : u = .stop
  · subst hu; rfl
  · simp only [completePhase_eq u hu, State.withArgs]

theorem busWait_withArgs (u : MicroOp) :
    busWait u (completePhase u) (s.withArgs b n) = (busWait u (completePhase u) s).withArgs b n := by
  obtain ⟨st, d, rest, he⟩ | he := answered_or s.env
  · rw [busWait_answer he, busWait_answer (s := s.withArgs b n) he]
    exact completePhase_withArgs b n { s with env := rest } u st d
  · rw [busWait_unanswered he, busWait_unanswered (s := s.withArgs b n) he]
    rfl

theorem performUop_withArgs (u : MicroOp) : performUop u (s.withArgs b n) = (performUop u s).withArgs b n := by
  by_cases hu : u = .stop
  · subst hu; rfl
  · rw [performUop_eq u hu, performUop_eq u hu]
    exact busWait_withArgs b n (busIssue u s) u

theorem sequencerStep_withArgs (p : SeqPos) :
    sequencerStep p (s.withArgs b n) = (sequencerStep p s).withArgs b n := by
  unfold sequencerStep
  split
  · exact goto_withArgs ..
  next d _ => exact loopHead_withArgs b n { s with mem := s.mem.set (p.addr s.cfg) d } p.nextByte
  · split
    · rw [performUop_withArgs, deliver_withArgs]
    · rfl

theorem controllerMove_withArgs : controllerMove (s.withArgs b n) = (controllerMove s).withArgs b n := by
  cases hs : s.seq with
  | none => rw [controllerMove_idle hs, controllerMove_idle (s := s.withArgs b n) hs]
  | some p =>
    cases hb : s.boundary with
    | waiting u =>
      rw [controllerMove_waiting hs hb, controllerMove_waiting (s := s.withArgs b n) hs hb, busWait_withArgs,
        deliver_withArgs]
    | done r => rw [controllerMove_done hs hb, controllerMove_done (s := s.withArgs b n) hs hb, deliver_withArgs]
    | free => rw [controllerMove_free hs hb, controllerMove_free (s := s.withArgs b n) hs hb, sequencerStep_withArgs]

theorem canMove_withArgs : (s.withArgs b n).canMove = s.canMove := rfl

end

/-- Settles O43: every operation of a move reads the position's copy of the arguments, so it commutes with a change of BUF and
LEN. -/
theorem argumentsAreLatched : Obligations.ArgumentsAreLatched :=
  fun s b n => ⟨controllerMove_withArgs b n s, canMove_withArgs b n s⟩

end Sys2Proof.Machine
end

section
/-! PROOFS. The moves of a command: there are at most `commandMoves`, so exec answers where the controller cannot move any
more, and each is one step of the core (R9, R180, R185, R190, R248). -/

namespace Sys2Proof.Machine

/-! A command as its steps -/

/-- A run of moves is a run of steps, one for each move made. -/
theorem exists_run_eq_runController (fuel : Nat) : ∀ s : State, s.cfg.admissible = true →
    ∃ k, Sys2Proof.core.run k s = .next (runController fuel s) := by
  induction fuel with
  | zero => exact fun s _ => ⟨0, rfl⟩
  | succ fuel ih =>
    intro s hadm
    by_cases hmove : s.canMove = true
    · obtain ⟨k, hk⟩ := ih (controllerMove s) (by rwa [(controllerMove_moveFrame s).cfg])
      exact ⟨k + 1, by rw [run_succ_of_step (step_of_canMove hadm hmove), hk, runController_step hmove]⟩
    · exact ⟨0, by rw [runController_blocked (Bool.eq_false_iff.mpr hmove)]; rfl⟩

/-- Settles O42: exec of either transfer is a run of moves from the started command, and each move is a step. -/
theorem commandEqualsItsSteps : Obligations.CommandEqualsItsSteps := by
  intro s sla keep hidle hadm hset
  refine ⟨?_, fun hlen => ?_⟩
  · obtain ⟨k, hk⟩ := exists_run_eq_runController (commandMoves s.len)
      (startCommand (latched .transmit sla keep .start s) s) hadm
    exact ⟨k, _, hk, execTransmit_runs hidle.notBusy hset sla keep⟩
  · obtain ⟨k, hk⟩ := exists_run_eq_runController (commandMoves s.len)
      (startCommand (latched .receive sla false .start s) s) hadm
    exact ⟨k, _, hk, execReceive_runs hidle.notBusy hset hlen sla⟩

/-! The moves left -/

/-- If each move lowers a measure, the controller stops within as many moves. -/
theorem canMove_runController_of_measure {P : State → Prop} {μ : State → Nat}
    (hkeep : ∀ s, P s → s.canMove = true → P (controllerMove s))
    (hless : ∀ s, P s → s.canMove = true → μ (controllerMove s) < μ s) (fuel : Nat) :
    ∀ s, P s → μ s ≤ fuel → (runController fuel s).canMove = false := by
  induction fuel with
  | zero =>
    intro s hP hμ
    by_contra hmove
    have := hless s hP (Bool.not_eq_false _ ▸ hmove)
    omega
  | succ fuel ih =>
    intro s hP hμ
    by_cases hmove : s.canMove = true
    · have := hless s hP hmove
      rw [runController_step hmove]
      exact ih _ (hkeep s hP hmove) (by omega)
    · have hmove := Bool.eq_false_iff.mpr hmove
      rwa [runController_blocked hmove]

/-- The most moves a command makes from position p on, where every phase is answered at once: two for each byte left, STOP,
and what is left of START and WADDR (R185, R190). -/
def SeqPos.movesLeft (p : SeqPos) : Nat :=
  match p.pc with
  | .configure => 0
  | .start => 2 * p.len.toNat + 3
  | .waddr => 2 * p.len.toNat + 2
  | .load => 2 * (p.len.toNat - p.idx.toNat) + 1
  | .wbyte _ => 2 * (p.len.toNat - p.idx.toNat)
  | .rbyte => 2 * (p.len.toNat - p.idx.toNat) + 1
  | .store _ => 2 * (p.len.toNat - p.idx.toNat)
  | .stop _ => 1

/-- The moves left of the command in progress, if there is one. -/
def State.movesLeft (s : State) : Nat := s.seq.elim 0 SeqPos.movesLeft

/-- The moves the controller makes before it ends or waits; one that waits, makes none. -/
def State.movesAhead (s : State) : Nat := if s.canMove then s.movesLeft else 0

theorem State.movesAhead_le (s : State) : s.movesAhead ≤ s.movesLeft := by
  unfold movesAhead
  split_ifs <;> omega

theorem State.movesAhead_of_blocked {s : State} (h : s.canMove = false) : s.movesAhead = 0 := by
  simp only [movesAhead, h, Bool.false_eq_true, if_false]

/-- At the head of the data loop two moves are left for each byte, and STOP. -/
theorem loopHead_movesLeft {p : SeqPos} (hk : p.kind ≠ .init) (s : State) :
    (loopHead p s).movesLeft ≤ 2 * (p.len.toNat - p.idx.toNat) + 1 := by
  unfold loopHead
  split
  next hinit => exact absurd hinit hk
  · split_ifs
    · exact le_rfl
    · exact Nat.zero_le _
    · exact Nat.le_add_left ..
  · split_ifs
    · exact le_rfl
    · exact Nat.le_add_left ..

/-- A data byte that is done leaves fewer moves than its second move found (R38). -/
theorem nextByte_loopHead_movesLeft {p : SeqPos} (hk : p.kind ≠ .init) (hlt : p.idx < p.len) (s : State) :
    (loopHead p.nextByte s).movesLeft < 2 * (p.len.toNat - p.idx.toNat) := by
  have hhead := loopHead_movesLeft (p := p.nextByte) hk s
  have hidx : p.nextByte.idx.toNat = p.idx.toNat + 1 := by
    simp only [SeqPos.nextByte]
    bv_omega
  have hlen : p.nextByte.len = p.len := rfl
  have hlt : p.idx.toNat < p.len.toNat := hlt
  rw [hidx, hlen] at hhead
  omega

/-- Taking the outcome of a micro-operation leaves fewer moves, whether it failed or succeeded. -/
theorem advance_movesLeft {c : Config} {m : Memory} {p : SeqPos} {u : MicroOp} {r : PrimOutcome} (hk : p.kind ≠ .init)
    (hreach : p.Reached c m) (hu : p.uop = some u) (hu' : u ≠ .stop) (hread : p.pc = .rbyte → r ≠ .ok) (s : State) :
    (advance p r s).movesLeft < p.movesLeft := by
  have hended : ∀ res, (endTransfer res s).movesLeft = 0 := fun _ => rfl
  rw [SeqPos.Reached] at hreach
  rw [SeqPos.movesLeft]
  cases hpc : p.pc with
  | start =>
    cases r with
    | fail f => simp only [advance, hpc, hended]; omega
    | _ => simp only [advance, hpc]; exact Nat.lt_succ_self _
  | waddr =>
    cases r with
    | fail f => simp only [advance, hpc, hended]; omega
    | _ =>
      have hhead := loopHead_movesLeft hk s
      simp only [advance, hpc]
      omega
  | wbyte d =>
    rw [hpc] at hreach
    obtain ⟨-, hlt, -⟩ := hreach
    have hnext := nextByte_loopHead_movesLeft hk hlt s
    cases r with
    | fail f => simp only [advance, hpc, hended]; omega
    | _ => simpa only [advance, hpc] using hnext
  | rbyte =>
    rw [hpc] at hreach
    obtain ⟨-, hlt⟩ := hreach
    have hlt : p.idx.toNat < p.len.toNat := hlt
    cases r with
    | fail f => simp only [advance, hpc]; show 1 < _; omega
    | ok => exact absurd rfl (hread hpc)
    | okData d => simp only [advance, hpc]; exact Nat.lt_succ_self _
  | stop res => exact absurd hpc (SeqPos.pc_ne_stop hu hu' res)
  | _ => simp [SeqPos.uop, hpc] at hu

/-- An outcome of the micro-operation of a read is a byte or a failure (R128, R131). -/
theorem phaseOutcome_rbyte_ne_ok {p : SeqPos} {u : MicroOp} (hu : p.uop = some u) (hpc : p.pc = .rbyte) (c : Config)
    (st d : Byte) : phaseOutcome c u st d ≠ .ok := by
  rw [← Option.some.inj ((SeqPos.uop_rbyte hpc).symm.trans hu)]
  split_ifs
  · exact readOutcome_ne_ok c .rbyteAck st d
  · exact readOutcome_ne_ok c .rbyteNack st d

/-- The step of a position with no phase in progress leaves fewer moves ahead: it moves the position on, or it waits. -/
theorem Underway.movesAhead_controllerMove_free {s x : State} {p₀ p : SeqPos} (h : Underway s p₀ p x)
    (hfree : x.boundary = .free) : (Machine.controllerMove x).movesAhead < p.movesLeft := by
  have hk : p.kind ≠ .init := h.args.kind ▸ h.kind
  have hsend : ∀ u, p.uop = some u → u ≠ .stop → (Machine.controllerMove x).movesAhead < p.movesLeft := by
    intro u hu hu'
    obtain ⟨st, d, rest, he⟩ | he := answered_or x.env
    · rw [controllerMove_answered h.seq hfree hu hu' he]
      exact (State.movesAhead_le _).trans_lt
        (advance_movesLeft hk h.reached hu hu' (fun hpc => phaseOutcome_rbyte_ne_ok hu hpc x.cfg st d) _)
    · have hpos := advance_movesLeft (r := .fail 0) hk h.reached hu hu' (by simp) x
      have hwaits : (Machine.controllerMove x).movesAhead = 0 := by
        rw [controllerMove_unanswered h.seq hfree hu hu' he]
        exact State.movesAhead_of_blocked (canMove_unanswered h.seq rfl he)
      omega
  have hreach := h.reached
  rw [SeqPos.Reached] at hreach
  cases hpc : p.pc with
  | configure => rw [hpc] at hreach; exact hreach.elim
  | start => exact hsend _ (SeqPos.uop_start hpc) (by simp)
  | waddr => exact hsend _ (SeqPos.uop_waddr hpc) (by simp)
  | load =>
    rw [controllerMove_load h.seq hfree hpc, SeqPos.movesLeft, hpc]
    exact (State.movesAhead_le _).trans_lt (Nat.lt_succ_self _)
  | wbyte d => exact hsend _ (SeqPos.uop_wbyte hpc) (by simp)
  | rbyte => exact hsend _ (SeqPos.uop_rbyte hpc) (by split_ifs <;> simp)
  | store d =>
    rw [hpc] at hreach
    obtain ⟨-, hlt⟩ := hreach
    rw [controllerMove_store h.seq hfree hpc, SeqPos.movesLeft, hpc]
    exact (State.movesAhead_le _).trans_lt (nextByte_loopHead_movesLeft hk hlt _)
  | stop res =>
    rw [controllerMove_stop h.seq hfree hpc, SeqPos.movesLeft, hpc]
    exact (State.movesAhead_le _).trans_lt Nat.one_pos

/-- Every move of a transfer leaves fewer moves ahead. -/
theorem TransferRun.movesAhead_controllerMove {s x : State} {p₀ : SeqPos} (h : TransferRun s p₀ x)
    (hmove : x.canMove = true) : (Machine.controllerMove x).movesAhead < x.movesAhead := by
  obtain ⟨p, h⟩ | h := h
  · have hahead : x.movesAhead = p.movesLeft := by simp only [State.movesAhead, State.movesLeft, hmove, h.seq, if_true,
      Option.elim_some]
    rw [hahead]
    obtain ⟨hfree, -⟩ | ⟨u, hw, hu, hu', -⟩ := h.sent
    · exact h.movesAhead_controllerMove_free hfree
    · obtain ⟨st, d, rest, he⟩ | he := answered_or x.env
      · rw [controllerMove_answer h.seq hw hu' he]
        exact (State.movesAhead_le _).trans_lt (advance_movesLeft (h.args.kind ▸ h.kind) h.reached hu hu'
          (fun hpc => phaseOutcome_rbyte_ne_ok hu hpc x.cfg st d) _)
      · rw [canMove_unanswered h.seq hw he] at hmove
        cases hmove
  · rw [canMove_idle h.seq] at hmove
    cases hmove

/-- `commandMoves` moves bring a transfer to its end or to a wait. -/
theorem canMove_runController_commandMoves {s : State} {kind : CmdKind} (hkind : kind ≠ .init) (sla : SlaveAddr)
    (keep : Bool) :
    (runController (commandMoves s.len) (startCommand (latched kind sla keep .start s) s)).canMove = false :=
  canMove_runController_of_measure (P := TransferRun s (latched kind sla keep .start s))
    (fun _ h hmove => h.controllerMove hmove) (fun _ h hmove => h.movesAhead_controllerMove hmove) _ _
    (startCommand_transferRun hkind sla keep) (State.movesAhead_le _)

/-- On an idle controller a transfer answers a state in which the controller cannot move. -/
theorem execTransmit_canMove {s : State} (hbusy : s.busy = false) (sla : SlaveAddr) (keep : Bool) :
    ∃ t, exec (.transmit sla keep) s = .next t ∧ t.canMove = false := by
  by_cases hset : s.configured = true
  · exact ⟨_, execTransmit_runs hbusy hset sla keep, canMove_runController_commandMoves (by decide) sla keep⟩
  · simp only [exec, execTransmit, hbusy, hset, Bool.false_eq_true, if_false]
    exact ⟨_, rfl, canMove_idle rfl⟩

theorem execReceive_canMove {s : State} (hbusy : s.busy = false) (sla : SlaveAddr) :
    ∃ t, exec (.receive sla) s = .next t ∧ t.canMove = false := by
  by_cases hset : s.configured = true
  · by_cases hlen : s.len = 0
    · simp only [exec, execReceive, hbusy, hset, hlen, Bool.false_eq_true, if_false, if_true]
      exact ⟨_, rfl, canMove_idle rfl⟩
    · exact ⟨_, execReceive_runs hbusy hset hlen sla, canMove_runController_commandMoves (by decide) sla false⟩
  · simp only [exec, execReceive, hbusy, hset, Bool.false_eq_true, if_false]
    exact ⟨_, rfl, canMove_idle rfl⟩

/-- Where there is a divisor table, INIT ends on an idle controller (R220, R223, R224). -/
theorem execInit_ends {s : State} (hbusy : s.busy = false) (hadm : s.cfg.admissible = true) (mode : ModeBits) (pu : Bool) :
    ∃ t, exec (.init mode pu) s = .next t ∧ t.busy = false := by
  obtain ⟨tb, htb, -⟩ := admissibleTableCoversModes.left s.cfg hadm
  simp only [exec, execInit, hbusy, htb, Bool.false_eq_true, if_false]
  split_ifs
  · exact ⟨_, rfl, rfl⟩
  · cases tb.entry mode with
    | none => exact ⟨_, rfl, rfl⟩
    | some v => exact ⟨_, rfl, rfl⟩

/-- Settles O40: INIT ends at once, and a transfer makes all the moves it can. -/
theorem commandEndsOrWaits : Obligations.CommandEndsOrWaits := by
  intro s i hidle hadm hi
  cases i with
  | init mode pu =>
    obtain ⟨t, ht, hended⟩ := execInit_ends hidle.notBusy hadm mode pu
    exact ⟨t, ht, .inl hended⟩
  | transmit sla keep =>
    obtain ⟨t, ht, hwaits⟩ := execTransmit_canMove hidle.notBusy sla keep
    exact ⟨t, ht, .inr hwaits⟩
  | receive sla =>
    obtain ⟨t, ht, hwaits⟩ := execReceive_canMove hidle.notBusy sla
    exact ⟨t, ht, .inr hwaits⟩
  | _ => cases hi

end Sys2Proof.Machine
end

section
/-! PROOFS. The run of a transfer whose phases are answered at once, byte by byte: the states it passes, and the whole state
it ends in (R185 to R194, R62, R63). -/

namespace Sys2Proof.Machine

/-! The answers of the environment -/

@[simp] theorem answers_nil : answers [] = [] := rfl

@[simp] theorem answers_cons (a : Byte × Byte) (l : List (Byte × Byte)) :
    answers (a :: l) = .answer a.1 a.2 :: answers l := rfl

@[simp] theorem answers_append (l l' : List (Byte × Byte)) : answers (l ++ l') = answers l ++ answers l' :=
  List.map_append

/-- A list that goes on with no hold begins with none after further answers. -/
theorem answers_append_head?_ne_hold {rest : List EnvEvent} (h : rest.head? ≠ some .hold) (l : List (Byte × Byte)) :
    (answers l ++ rest).head? ≠ some .hold := by
  cases l with
  | nil => exact h
  | cons a l => simp

/-- The status of the last of these answers; `raw` where there is none. -/
def lastStatus (raw : Byte) (l : List (Byte × Byte)) : Byte := (l.getLast?.map Prod.fst).getD raw

@[simp] theorem lastStatus_nil (raw : Byte) : lastStatus raw [] = raw := rfl

@[simp] theorem lastStatus_cons (raw : Byte) (a : Byte × Byte) (l : List (Byte × Byte)) :
    lastStatus raw (a :: l) = lastStatus a.1 l := by
  rw [lastStatus, lastStatus, List.getLast?_cons]
  cases l.getLast? <;> rfl

theorem lastStatus_of_mem_getLast? {raw : Byte} {z : Byte × Byte} {l : List (Byte × Byte)} (h : z ∈ l.getLast?) :
    lastStatus raw l = z.1 := by
  rw [lastStatus, Option.mem_def.mp h]
  rfl

theorem lastStatus_of_forall {raw st : Byte} {l : List (Byte × Byte)} (h : ∀ a ∈ l, a.1 = st) :
    lastStatus raw l = if l.length = 0 then raw else st := by
  cases hlast : l.getLast? with
  | none => simp [lastStatus, List.getLast?_eq_none_iff.mp hlast]
  | some z =>
    have hmem := List.mem_of_getLast? hlast
    rw [lastStatus_of_mem_getLast? hlast, h z hmem, if_neg (by simpa using List.ne_nil_of_mem hmem)]

/-! The bytes of a buffer -/

/-- Memory with these bytes stored one after another, in the slots from k on (R63). -/
def Memory.storeBytes (c : Config) (base : Word) : Nat → Memory → List Byte → Memory
  | _, m, [] => m
  | k, m, b :: bs => storeBytes c base (k + 1) (m.set (bufAddr c base k) b) bs

section
variable {c : Config} {base : Word}

theorem Memory.get_storeBytes_other {a : Nat} {bs : List Byte} :
    ∀ {k : Nat} {m : Memory}, m.wf → (∀ i < bs.length, a ≠ bufAddr c base (k + i)) →
      (storeBytes c base k m bs).get a = m.get a := by
  induction bs with
  | nil => exact fun _ _ => rfl
  | cons b bs ih =>
    intro k m hwf ha
    have hrest : ∀ i < bs.length, a ≠ bufAddr c base (k + 1 + i) := fun i hi => by
      rw [Nat.add_assoc, Nat.add_comm 1]
      exact ha (i + 1) (Nat.succ_lt_succ hi)
    have hfirst := ha 0 (Nat.succ_pos _)
    rw [Nat.add_zero] at hfirst
    rw [storeBytes, ih (Memory.set_wf _ b hwf) hrest, Memory.get_set_other b hwf hfirst]

/-- A slot holds its byte unless a later slot is the same address (R62). -/
theorem Memory.get_storeBytes_slot {bs : List Byte} :
    ∀ {k : Nat} {m : Memory}, m.wf → ∀ (i : Nat) (hi : i < bs.length),
      (∀ j, i < j → j < bs.length → bufAddr c base (k + j) ≠ bufAddr c base (k + i)) →
      (storeBytes c base k m bs).get (bufAddr c base (k + i)) = bs[i] := by
  induction bs with
  | nil => exact fun _ _ hi => absurd hi (Nat.not_lt_zero _)
  | cons b bs ih =>
    intro k m hwf i hi hlast
    have hshift : ∀ j, k + 1 + j = k + (j + 1) := fun j => by omega
    cases i with
    | zero =>
      rw [storeBytes, Memory.get_storeBytes_other (Memory.set_wf _ b hwf), Nat.add_zero, Memory.get_set_same _ b hwf]
      · rfl
      · intro j hj
        rw [hshift]
        exact (hlast (j + 1) (Nat.succ_pos j) (Nat.succ_lt_succ hj)).symm
    | succ i =>
      rw [storeBytes, ← hshift i]
      refine ih (Memory.set_wf _ b hwf) i (Nat.lt_of_succ_lt_succ hi) fun j hij hj => ?_
      rw [hshift, hshift]
      exact hlast (j + 1) (Nat.succ_lt_succ hij) (Nat.succ_lt_succ hj)

/-- The same of a whole buffer: its slots, and every byte outside them (R62, R63). -/
theorem Memory.get_storeBytes_zero {m : Memory} (hwf : m.wf) (bs : List Byte) :
    (∀ i (hi : i < bs.length), (∀ j, i < j → j < bs.length → bufAddr c base j ≠ bufAddr c base i) →
      (storeBytes c base 0 m bs).get (bufAddr c base i) = bs[i]) ∧
    (∀ a, (∀ i < bs.length, a ≠ bufAddr c base i) → (storeBytes c base 0 m bs).get a = m.get a) := by
  have hslot := Memory.get_storeBytes_slot (c := c) (base := base) (bs := bs) (k := 0) hwf
  have hother := fun a => Memory.get_storeBytes_other (c := c) (base := base) (a := a) (bs := bs) (k := 0) hwf
  simp only [Nat.zero_add] at hslot hother
  exact ⟨hslot, hother⟩

end

/-! The position at byte k -/

/-- The position of the same command at byte k. -/
def SeqPos.atIndex (p : SeqPos) (k : Nat) : SeqPos := { p with idx := BitVec.ofNat 16 k }

/-- The position of the same command at the same byte, at step pc. -/
def SeqPos.atStep (p : SeqPos) (pc : SeqStep) : SeqPos := { p with pc := pc }

section
variable {c : Config} {m : Memory} {p : SeqPos} {k : Nat}

theorem SeqPos.atStep_nextByte (p : SeqPos) (k : Nat) (pc : SeqStep) :
    ((p.atIndex k).atStep pc).nextByte = (p.atIndex (k + 1)).atStep pc := by
  simp only [nextByte, atIndex, atStep, BitVec.ofNat_add]
  rfl

theorem SeqPos.atIndex_of_idx_zero (h : p.idx = 0) : p.atIndex 0 = p := by
  rw [atIndex, ← show p.idx = BitVec.ofNat 16 0 from h]

theorem SeqPos.atIndex_idx_toNat (h : k ≤ p.len.toNat) : (p.atIndex k).idx.toNat = k := by
  have := p.len.isLt
  rw [atIndex, BitVec.toNat_ofNat, Nat.mod_eq_of_lt (by omega)]

theorem SeqPos.atIndex_lt_len (h : k < p.len.toNat) : (p.atIndex k).idx < (p.atIndex k).len := by
  rw [BitVec.lt_def, atIndex_idx_toNat h.le]
  exact h

theorem SeqPos.atIndex_len_not_lt (p : SeqPos) : ¬(p.atIndex p.len.toNat).idx < (p.atIndex p.len.toNat).len := by
  rw [BitVec.lt_def, atIndex_idx_toNat le_rfl]
  exact lt_irrefl _

theorem SeqPos.atIndex_addr (h : k ≤ p.len.toNat) (c : Config) : (p.atIndex k).addr c = bufAddr c p.base k := by
  rw [addr, atIndex_idx_toNat h]
  rfl

theorem SeqPos.atIndex_succ_idx_ne_zero (h : k < p.len.toNat) : (p.atIndex (k + 1)).idx ≠ 0 :=
  fun h0 => Nat.succ_ne_zero k ((atIndex_idx_toNat h).symm.trans (congrArg BitVec.toNat h0))

/-- A data byte leaves a TRANSMIT in Writing and a RECEIVE in Reading (R39). -/
theorem SeqPos.dataPhase_onWbyte (hk : p.kind = .transmit) (h : k < p.len.toNat) :
    (p.atIndex k).dataPhase.onWbyte = (p.atIndex (k + 1)).dataPhase := by
  have hk' : ∀ j, (p.atIndex j).kind = .transmit := fun _ => hk
  simp only [dataPhase, atIndex_succ_idx_ne_zero h, hk', reduceCtorEq, if_false]
  split_ifs <;> rfl

theorem SeqPos.dataPhase_onRbyte (hk : p.kind = .receive) (h : k < p.len.toNat) :
    (p.atIndex k).dataPhase.onRbyte = (p.atIndex (k + 1)).dataPhase := by
  have hk' : ∀ j, (p.atIndex j).kind = .receive := fun _ => hk
  simp only [dataPhase, atIndex_succ_idx_ne_zero h, hk', if_true, if_false]
  split_ifs <;> rfl

theorem SeqPos.dataPhase_atEnd (p : SeqPos) : p.dataPhase.atEnd = .openHeld := by
  unfold dataPhase
  split_ifs <;> rfl

/-- The form of read k of n (R190). -/
def readOp (n k : Nat) : MicroOp := if k + 1 < n then .rbyteAck else .rbyteNack

theorem readOp_ne_stop (n k : Nat) : readOp n k ≠ .stop := by
  unfold readOp
  split_ifs <;> simp

theorem readOp_word (n k : Nat) : (readOp n k).word = readWord n k := by
  unfold readOp readWord
  split_ifs <;> rfl

theorem phaseAfter_readOp (n k : Nat) (ph : BusPhase) : phaseAfter (readOp n k) ph = ph.onRbyte := by
  unfold readOp
  split_ifs <;> rfl

theorem phaseOutcome_readOp (c : Config) (n k : Nat) (st d : Byte) :
    phaseOutcome c (readOp n k) st d = readOutcome c (if k + 1 < n then .rbyteAck else .rbyteNack) st d := by
  unfold readOp
  split_ifs <;> rfl

theorem statusOk_read_iff {codes : StatusCodes} {n k : Nat} {st : Byte} :
    statusOk codes (if k + 1 < n then .rbyteAck else .rbyteNack) st = true ↔
      st = if k + 1 < n then codes.mrDataAck else codes.mrDataNack := by
  split_ifs
  · exact statusOk_rbyteAck_iff
  · exact statusOk_rbyteNack_iff

theorem SeqPos.atStep_uop_rbyte (h : k < p.len.toNat) :
    ((p.atIndex k).atStep .rbyte).uop = some (readOp p.len.toNat k) := by
  have hidx : ((p.atIndex k).atStep .rbyte).idx.toNat = k := atIndex_idx_toNat h.le
  rw [uop_rbyte rfl, ack, readOp, hidx]
  simp only [decide_eq_true_eq]
  rfl

theorem SeqPos.dataWords_succ_transmit (hk : p.kind = .transmit) :
    p.dataWords c m (k + 1) = p.dataWords c m k ++ [(MicroOp.wbyte (m.get (bufAddr c p.base k))).word] := by
  simp only [dataWords, hk, writeWords, List.range_succ, List.map_append]
  rfl

theorem SeqPos.dataWords_succ_receive (hk : p.kind = .receive) :
    p.dataWords c m (k + 1) = p.dataWords c m k ++ [(readOp p.len.toNat k).word] := by
  simp only [dataWords, hk, List.range_succ, List.map_append, readOp_word]
  rfl

end

/-! The moves of a started command -/

section
variable {p q : SeqPos} {u : MicroOp} {y : State} {st d : Byte} {rest : List EnvEvent}

theorem goto_startCommand (p q : SeqPos) (pc : SeqStep) (y : State) :
    goto p pc (startCommand q y) = startCommand (p.atStep pc) y := rfl

theorem loopHead_write (hk : p.kind = .transmit) (hlt : p.idx < p.len) :
    loopHead p (startCommand q y) = startCommand (p.atStep .load) y := by
  simp only [loopHead, hk, hlt, if_true, goto_startCommand]

theorem loopHead_read (hk : p.kind = .receive) (hlt : p.idx < p.len) :
    loopHead p (startCommand q y) = startCommand (p.atStep .rbyte) y := by
  simp only [loopHead, hk, hlt, if_true, goto_startCommand]

/-- After the last byte a TRANSMIT that keeps the bus ends (R187). -/
theorem loopHead_keep (hk : p.kind = .transmit) (hkeep : p.keep = true) (hlt : ¬p.idx < p.len) :
    loopHead p (startCommand q y) = endTransfer .success (startCommand q y) := by
  simp only [loopHead, hk, hlt, hkeep, if_true, if_false]

/-- After the last byte any other transfer goes on to STOP (R187, R190). -/
theorem loopHead_stop (hk : p.kind = .receive ∨ p.kind = .transmit ∧ p.keep = false) (hlt : ¬p.idx < p.len) :
    loopHead p (startCommand q y) = startCommand (p.atStep (.stop .success)) y := by
  obtain hk | ⟨hk, hkeep⟩ := hk
  · simp only [loopHead, hk, hlt, if_false, goto_startCommand]
  · simp only [loopHead, hk, hlt, hkeep, Bool.false_eq_true, if_false, goto_startCommand]

/-- The head of the data loop reads neither the step it is reached from nor the position it replaces. -/
theorem loopHead_startCommand_congr (hk : p.kind ≠ .init) (pc : SeqStep) (q q' : SeqPos) (y : State) :
    loopHead (p.atStep pc) (startCommand q y) = loopHead p (startCommand q' y) := by
  obtain ⟨kind, sla, keep, base, len, idx, pc'⟩ := p
  cases kind with
  | init => exact absurd rfl hk
  | transmit => rfl
  | receive => rfl

/-- A micro-operation that is answered with success: one move. -/
theorem runController_answered_ok {r : PrimOutcome} (fuel : Nat) (hu : p.uop = some u) (hu' : u ≠ .stop)
    (he : y.env = .answer st d :: rest) (hr : phaseOutcome y.cfg u st d = r) (hok : r.isOk = true) :
    runController (fuel + 1) (startCommand p y) = runController fuel (advance p r (startCommand p { y with
      env := rest, trace := y.trace ++ [u.word], lastRaw := st,
      busOpen := if u = .start then true else y.busOpen, phase := phaseAfter u y.phase })) := by
  rw [runController_step (canMove_answered (s := startCommand p y) rfl rfl hu he),
    controllerMove_answered_ok (s := startCommand p y) rfl rfl hu hu' he hr hok]
  rfl

/-- A micro-operation that is answered with failure: one move. -/
theorem runController_answered_fail {f : Half} (fuel : Nat) (hu : p.uop = some u) (hu' : u ≠ .stop)
    (he : y.env = .answer st d :: rest) (hr : phaseOutcome y.cfg u st d = .fail f) :
    runController (fuel + 1) (startCommand p y) = runController fuel (advance p (.fail f) (startCommand p { y with
      env := rest, trace := y.trace ++ [u.word], lastRaw := st })) := by
  rw [runController_step (canMove_answered (s := startCommand p y) rfl rfl hu he),
    controllerMove_answered_fail (s := startCommand p y) rfl rfl hu hu' he hr]
  rfl

/-- A byte is read from the buffer (R61): one move. -/
theorem runController_load (fuel : Nat) (hp : p.pc = .load) (hmem : memOkRead y.cfg (p.addr y.cfg) = true)
    (hhold : y.env.head? ≠ some .hold) :
    runController (fuel + 1) (startCommand p y) =
      runController fuel (startCommand (p.atStep (.wbyte (y.mem.get (p.addr y.cfg)))) y) := by
  have hadmits : memAdmits y.cfg p = true := by rwa [memAdmits, hp]
  rw [runController_step (canMove_free (s := startCommand p y) rfl rfl (by simp [hp]) hadmits hhold),
    controllerMove_load (s := startCommand p y) rfl rfl hp]
  rfl

/-- A byte is stored in the buffer (R63): one move. -/
theorem runController_store {b : Byte} (fuel : Nat) (hp : p.pc = .store b) (hmem : memOkWrite y.cfg (p.addr y.cfg) = true)
    (hhold : y.env.head? ≠ some .hold) :
    runController (fuel + 1) (startCommand p y) = runController fuel
      (loopHead p.nextByte (startCommand p { y with mem := y.mem.set (p.addr y.cfg) b })) := by
  have hadmits : memAdmits y.cfg p = true := by rwa [memAdmits, hp]
  rw [runController_step (canMove_free (s := startCommand p y) rfl rfl (by simp [hp]) hadmits hhold),
    controllerMove_store (s := startCommand p y) rfl rfl hp]
  rfl

/-- A transfer that found an idle controller ends: RESULT is written, and a bus still held is Open (R39, R181). -/
theorem endTransfer_startCommand (hidle : y.Idle) (res : Result) :
    endTransfer res (startCommand p y) =
      { y with resFail := res.failBit, resCode := res.code, phase := y.phase.atEnd } := by
  obtain ⟨hbusy, hseq, hfree⟩ := hidle
  simp only [endTransfer, endCommand, setResult, startCommand, hbusy, hseq, hfree]

/-- The final STOP and the end of the command (R125, R181, R192): one move. -/
theorem runController_stop {res : Result} (fuel : Nat) (hidle : y.Idle) (hp : p.pc = .stop res)
    (hhold : y.env.head? ≠ some .hold) :
    runController (fuel + 1) (startCommand p y) = { y with
      trace := y.trace ++ [0x200], busOpen := false, phase := .stopped,
      resFail := res.failBit, resCode := res.code } := by
  obtain ⟨hmem, hpc⟩ := memAdmits_of_uop (SeqPos.uop_stop hp) y.cfg
  have hmove : (startCommand p y).canMove = true := canMove_free rfl rfl hpc hmem hhold
  have hidle' : State.Idle { y with trace := y.trace ++ [0x200], busOpen := false, phase := .stopped } :=
    ⟨hidle.notBusy, hidle.noPosition, hidle.noPhase⟩
  rw [runController_step hmove, controllerMove_stop rfl rfl hp, runController_idle (endTransfer_seq ..)]
  exact endTransfer_startCommand hidle' res

end

/-! A transfer at the head of its data loop -/

/-- What a transfer that found state s has done after START, the address and k data bytes: `raw` is the last status, m the
memory and `rest` what is left of the environment's list (R31, R39, R188, R194). -/
def State.afterBytes (s : State) (p : SeqPos) (k : Nat) (raw : Byte) (m : Memory) (rest : List EnvEvent) : State :=
  { s with
    env := rest, mem := m, lastRaw := raw, busOpen := true, phase := (p.atIndex k).dataPhase,
    trace := s.trace ++ (p.header ++ p.dataWords s.cfg s.mem k) }

/-- The transfer there, at the head of its data loop. -/
def State.atByte (s : State) (p : SeqPos) (k : Nat) (raw : Byte) (m : Memory) (rest : List EnvEvent) : State :=
  loopHead (p.atIndex k) (startCommand (p.atIndex k) (s.afterBytes p k raw m rest))

theorem State.Idle.afterBytes {s : State} (h : s.Idle) (p : SeqPos) (k : Nat) (raw : Byte) (m : Memory)
    (rest : List EnvEvent) : (s.afterBytes p k raw m rest).Idle :=
  ⟨h.notBusy, h.noPosition, h.noPhase⟩

section
variable {s : State} {p : SeqPos} {k : Nat} {raw st d : Byte} {m : Memory} {rest : List EnvEvent}

/-- The head of the data loop is reached from any step of byte k. -/
theorem loopHead_eq_atByte (hk : p.kind ≠ .init) (pc : SeqStep) (q : SeqPos) :
    loopHead ((p.atIndex k).atStep pc) (startCommand q (s.afterBytes p k raw m rest)) = s.atByte p k raw m rest :=
  loopHead_startCommand_congr (p := p.atIndex k) hk ..

/-- START and the address, both acknowledged, bring a transfer to the head of its data loop: two moves (R185, R190). -/
theorem runController_header {x y : Byte} (fuel : Nat) (hk : p.kind ≠ .init) (hp : p.pc = .start) (hidx : p.idx = 0)
    (hst : st = s.cfg.codes.start ∨ st = s.cfg.codes.repStart)
    (hack : raw = if p.kind.dir then s.cfg.codes.mrSlaAck else s.cfg.codes.mtSlaAck)
    (he : s.env = .answer st x :: .answer raw y :: rest) :
    runController (fuel + 1 + 1) (startCommand p s) = runController fuel (s.atByte p 0 raw s.mem rest) := by
  have hok : statusOk s.cfg.codes (waddrKind (addrByte p.sla p.kind.dir)) raw = true := by
    rwa [statusOk_waddrKind_iff, addrByte_getLsbD_zero]
  have hu : (p.atStep .waddr).uop = some (.waddr (addrByte p.sla p.kind.dir)) := SeqPos.uop_waddr rfl
  have hstarted := runController_startCommand_started (fuel + 1) hp he hst
  have haddressed := runController_answered_ok fuel (y := { s with
      env := .answer raw y :: rest, trace := s.trace ++ [0x100], lastRaw := st, busOpen := true, phase := .started })
    hu (by simp) rfl (translateStatus_of_ok hok) rfl
  have hphase : p.dataPhase = .addressAcked := if_pos hidx
  refine hstarted.trans (haddressed.trans (congrArg _ ?_))
  rw [advance_waddr_ok rfl rfl, ← loopHead_eq_atByte hk .waddr (p.atStep .waddr), State.afterBytes,
    SeqPos.atIndex_of_idx_zero hidx, SeqPos.dataWords_zero, hphase, List.append_assoc]
  rfl

/-- The micro-operation of data byte k, answered with success: one move. -/
theorem runController_dataOp_ok {q : SeqPos} {u : MicroOp} {r : PrimOutcome} (fuel : Nat) (hu : q.uop = some u)
    (hu' : u ≠ .stop) (hr : phaseOutcome s.cfg u st d = r) (hok : r.isOk = true)
    (hword : p.dataWords s.cfg s.mem (k + 1) = p.dataWords s.cfg s.mem k ++ [u.word])
    (hphase : phaseAfter u (p.atIndex k).dataPhase = (p.atIndex (k + 1)).dataPhase) :
    runController (fuel + 1) (startCommand q (s.afterBytes p k raw m (.answer st d :: rest))) =
      runController fuel (advance q r (startCommand q (s.afterBytes p (k + 1) st m rest))) := by
  rw [runController_answered_ok (y := s.afterBytes p k raw m (.answer st d :: rest)) fuel hu hu' rfl hr hok]
  simp only [State.afterBytes, ite_self, hword, hphase, List.append_assoc]

/-- The same, answered with failure: the bus phase stays. -/
theorem runController_dataOp_fail {q : SeqPos} {u : MicroOp} {f : Half} (fuel : Nat) (hu : q.uop = some u)
    (hu' : u ≠ .stop) (hr : phaseOutcome s.cfg u st d = .fail f)
    (hword : p.dataWords s.cfg s.mem (k + 1) = p.dataWords s.cfg s.mem k ++ [u.word]) :
    runController (fuel + 1) (startCommand q (s.afterBytes p k raw m (.answer st d :: rest))) =
      runController fuel (advance q (.fail f) (startCommand q
        { s.afterBytes p (k + 1) st m rest with phase := (p.atIndex k).dataPhase })) := by
  rw [runController_answered_fail (y := s.afterBytes p k raw m (.answer st d :: rest)) fuel hu hu' rfl hr]
  simp only [State.afterBytes, hword, List.append_assoc]

end

/-! The data bytes of a TRANSMIT -/

section
variable {s : State} {p : SeqPos} {k : Nat} {raw st d : Byte} {rest : List EnvEvent}

/-- Byte k is read from the buffer (R61, R185): one move. -/
theorem runController_loadByte (fuel : Nat) (hk : p.kind = .transmit) (hlt : k < p.len.toNat)
    (hmem : memOkRead s.cfg (bufAddr s.cfg p.base k) = true) (hhold : rest.head? ≠ some .hold) :
    runController (fuel + 1) (s.atByte p k raw s.mem rest) = runController fuel (startCommand
      ((p.atIndex k).atStep (.wbyte (s.mem.get (bufAddr s.cfg p.base k)))) (s.afterBytes p k raw s.mem rest)) := by
  have haddr : ((p.atIndex k).atStep .load).addr s.cfg = bufAddr s.cfg p.base k := SeqPos.atIndex_addr hlt.le s.cfg
  rw [State.atByte, loopHead_write (p := p.atIndex k) hk (SeqPos.atIndex_lt_len hlt), ← haddr]
  rw [← haddr] at hmem
  exact runController_load fuel rfl hmem hhold

/-- Byte k is sent and acknowledged: two moves (R185). -/
theorem runController_writeByte (fuel : Nat) (hk : p.kind = .transmit) (hlt : k < p.len.toNat)
    (hmem : memOkRead s.cfg (bufAddr s.cfg p.base k) = true) (hst : st = s.cfg.codes.mtDataAck) :
    runController (fuel + 1 + 1) (s.atByte p k raw s.mem (.answer st d :: rest)) =
      runController fuel (s.atByte p (k + 1) st s.mem rest) := by
  rw [runController_loadByte _ hk hlt hmem (by simp),
    runController_dataOp_ok fuel (SeqPos.uop_wbyte rfl) (by simp) (translateStatus_of_ok (statusOk_wbyte_iff.mpr hst)) rfl
      (SeqPos.dataWords_succ_transmit hk) (SeqPos.dataPhase_onWbyte hk hlt),
    advance_wbyte_ok rfl rfl, SeqPos.atStep_nextByte, loopHead_eq_atByte (by simp [hk])]

/-- Byte k is sent and not acknowledged: two moves, and the command has ended with the bus Open (R186). -/
theorem runController_writeByte_fail (fuel : Nat) (hidle : s.Idle) (hk : p.kind = .transmit) (hlt : k < p.len.toNat)
    (hmem : memOkRead s.cfg (bufAddr s.cfg p.base k) = true) (hst : st ≠ s.cfg.codes.mtDataAck) :
    runController (fuel + 1 + 1) (s.atByte p k raw s.mem (.answer st d :: rest)) =
      { s with
        env := rest, resFail := true, resCode := st.setWidth 16, lastRaw := st, busOpen := true, phase := .openHeld,
        trace := s.trace ++ (p.header ++ p.dataWords s.cfg s.mem (k + 1)) } := by
  have hidle' : State.Idle { s.afterBytes p (k + 1) st s.mem rest with phase := (p.atIndex k).dataPhase } :=
    ⟨hidle.notBusy, hidle.noPosition, hidle.noPhase⟩
  rw [runController_loadByte _ hk hlt hmem (by simp),
    runController_dataOp_fail fuel (SeqPos.uop_wbyte rfl) (by simp)
      (translateStatus_of_not_ok (statusOk_wbyte_iff.not.mpr hst)) (SeqPos.dataWords_succ_transmit hk)]
  simp only [advance, SeqPos.atStep]
  rw [runController_idle (endTransfer_seq ..), endTransfer_startCommand hidle']
  simp only [State.afterBytes, SeqPos.dataPhase_atEnd, Result.failBit, Result.code]

/-- The bytes from k on that are acknowledged, by induction on the answers. -/
theorem runController_writeBytes (fuel : Nat) (hk : p.kind = .transmit) {l : List (Byte × Byte)}
    (hl : ∀ a ∈ l, a.1 = s.cfg.codes.mtDataAck) : ∀ {k : Nat} {raw : Byte}, k + l.length ≤ p.len.toNat →
    (∀ i < l.length, memOkRead s.cfg (bufAddr s.cfg p.base (k + i)) = true) →
    runController (2 * l.length + fuel) (s.atByte p k raw s.mem (answers l ++ rest)) =
      runController fuel (s.atByte p (k + l.length) (lastStatus raw l) s.mem rest) := by
  induction l with
  | nil => simp
  | cons a l ih =>
    intro k raw hlen hmem
    rw [List.length_cons] at hlen hmem
    have hfuel : 2 * (l.length + 1) + fuel = 2 * l.length + fuel + 1 + 1 := by omega
    have hshift : ∀ i, k + 1 + i = k + (i + 1) := fun i => by omega
    have hfirst : memOkRead s.cfg (bufAddr s.cfg p.base k) = true := hmem 0 (Nat.succ_pos _)
    rw [List.length_cons, hfuel, answers_cons, List.cons_append,
      runController_writeByte _ hk (by omega) hfirst (hl a List.mem_cons_self),
      ih (fun b hb => hl b (List.mem_cons_of_mem a hb)) (by omega), hshift, lastStatus_cons]
    intro i hi
    rw [hshift]
    exact hmem (i + 1) (Nat.succ_lt_succ hi)

end

/-! The data bytes of a RECEIVE -/

section
variable {s : State} {p : SeqPos} {k : Nat} {raw st d b : Byte} {m : Memory} {rest : List EnvEvent}

/-- Read k delivers a byte, which goes to slot k: two moves (R63, R190). -/
theorem runController_readByte (fuel : Nat) (hk : p.kind = .receive) (hlt : k < p.len.toNat)
    (hr : readOutcome s.cfg (if k + 1 < p.len.toNat then .rbyteAck else .rbyteNack) st d = .okData b)
    (hmem : memOkWrite s.cfg (bufAddr s.cfg p.base k) = true) (hhold : rest.head? ≠ some .hold) :
    runController (fuel + 1 + 1) (s.atByte p k raw m (.answer st d :: rest)) =
      runController fuel (s.atByte p (k + 1) st (m.set (bufAddr s.cfg p.base k) b) rest) := by
  have hphase : phaseAfter (readOp p.len.toNat k) (p.atIndex k).dataPhase = (p.atIndex (k + 1)).dataPhase := by
    rw [phaseAfter_readOp, SeqPos.dataPhase_onRbyte hk hlt]
  have haddr : ((p.atIndex k).atStep (.store b)).addr s.cfg = bufAddr s.cfg p.base k := SeqPos.atIndex_addr hlt.le s.cfg
  rw [← haddr] at hmem
  rw [State.atByte, loopHead_read (p := p.atIndex k) hk (SeqPos.atIndex_lt_len hlt),
    runController_dataOp_ok (fuel + 1) (SeqPos.atStep_uop_rbyte hlt) (readOp_ne_stop _ _)
      ((phaseOutcome_readOp ..).trans hr) rfl (SeqPos.dataWords_succ_receive hk) hphase,
    ← haddr, ← loopHead_eq_atByte (by simp [hk]) (.store b) ((p.atIndex k).atStep (.store b)), ← SeqPos.atStep_nextByte]
  exact runController_store fuel rfl hmem hhold

/-- Read k fails: STOP follows, and the command has ended with the bus free (R192). -/
theorem runController_readByte_fail {f : Half} (fuel : Nat) (hidle : s.Idle) (hk : p.kind = .receive)
    (hlt : k < p.len.toNat)
    (hr : readOutcome s.cfg (if k + 1 < p.len.toNat then .rbyteAck else .rbyteNack) st d = .fail f)
    (hhold : rest.head? ≠ some .hold) :
    runController (fuel + 1 + 1) (s.atByte p k raw m (.answer st d :: rest)) =
      { s with
        env := rest, mem := m, resFail := true, resCode := f, lastRaw := st, busOpen := false, phase := .stopped,
        trace := s.trace ++ p.wholeTrace s.cfg s.mem (k + 1) } := by
  have hidle' : State.Idle { s.afterBytes p (k + 1) st m rest with phase := (p.atIndex k).dataPhase } :=
    ⟨hidle.notBusy, hidle.noPosition, hidle.noPhase⟩
  have hadvance : ∀ y, advance ((p.atIndex k).atStep .rbyte) (.fail f) (startCommand ((p.atIndex k).atStep .rbyte) y) =
      startCommand ((p.atIndex k).atStep (.stop (.failure f))) y := fun _ => rfl
  have hfreed : ¬(p.kind = .transmit ∧ p.keep = true) := by simp [hk]
  rw [State.atByte, loopHead_read (p := p.atIndex k) hk (SeqPos.atIndex_lt_len hlt),
    runController_dataOp_fail (fuel + 1) (SeqPos.atStep_uop_rbyte hlt) (readOp_ne_stop _ _)
      ((phaseOutcome_readOp ..).trans hr) (SeqPos.dataWords_succ_receive hk),
    hadvance, runController_stop (res := .failure f) fuel hidle' rfl hhold]
  simp only [State.afterBytes, SeqPos.wholeTrace, hfreed, if_false, List.append_assoc, Result.failBit, Result.code]

/-- The reads from k on that deliver a byte, by induction on the bytes. -/
theorem runController_readBytes (fuel : Nat) (hk : p.kind = .receive) (hhold : rest.head? ≠ some .hold)
    {got : List Byte} : ∀ {l : List (Byte × Byte)} {k : Nat} {raw : Byte} {m : Memory},
    l.length = got.length → k + got.length ≤ p.len.toNat →
    (∀ i (hr : i < l.length) (hg : i < got.length),
      readOutcome s.cfg (if k + i + 1 < p.len.toNat then .rbyteAck else .rbyteNack) l[i].1 l[i].2 = .okData got[i]) →
    (∀ i < got.length, memOkWrite s.cfg (bufAddr s.cfg p.base (k + i)) = true) →
    runController (2 * got.length + fuel) (s.atByte p k raw m (answers l ++ rest)) =
      runController fuel (s.atByte p (k + got.length) (lastStatus raw l) (m.storeBytes s.cfg p.base k got) rest) := by
  induction got with
  | nil =>
    intro l k raw m hl
    rw [List.length_eq_zero_iff.mp hl]
    simp [Memory.storeBytes]
  | cons b got ih =>
    intro l k raw m hl hlen hread hmem
    obtain ⟨a, l, rfl⟩ := List.exists_cons_of_length_eq_add_one hl
    rw [List.length_cons, List.length_cons, Nat.add_right_cancel_iff] at hl
    rw [List.length_cons] at hlen hmem
    have hfuel : 2 * (got.length + 1) + fuel = 2 * got.length + fuel + 1 + 1 := by omega
    have hshift : ∀ i, k + 1 + i = k + (i + 1) := fun i => by omega
    have hfirst : readOutcome s.cfg (if k + 1 < p.len.toNat then .rbyteAck else .rbyteNack) a.1 a.2 = .okData b :=
      hread 0 (Nat.succ_pos _) (Nat.succ_pos _)
    have hslot : memOkWrite s.cfg (bufAddr s.cfg p.base k) = true := hmem 0 (Nat.succ_pos _)
    rw [List.length_cons, hfuel, answers_cons, List.cons_append,
      runController_readByte _ hk (by omega) hfirst hslot (answers_append_head?_ne_hold hhold l),
      ih hl (by omega), hshift, lastStatus_cons, Memory.storeBytes]
    · intro i hr hg
      rw [hshift]
      exact hread (i + 1) (Nat.succ_lt_succ hr) (Nat.succ_lt_succ hg)
    · intro i hi
      rw [hshift]
      exact hmem (i + 1) (Nat.succ_lt_succ hi)

end

/-! The end of the data phases -/

section
variable {s : State} {p : SeqPos} {n : Nat} {raw : Byte} {m : Memory} {rest : List EnvEvent}

/-- After its last byte a TRANSMIT that keeps the bus has ended, with no move of its own (R187). -/
theorem runController_end_keep (fuel : Nat) (hidle : s.Idle) (hn : n = p.len.toNat) (hk : p.kind = .transmit)
    (hkeep : p.keep = true) : runController fuel (s.atByte p n raw m rest) =
      { s with
        env := rest, mem := m, resFail := false, resCode := 0, lastRaw := raw, busOpen := true, phase := .openHeld,
        trace := s.trace ++ p.wholeTrace s.cfg s.mem n } := by
  subst hn
  rw [State.atByte, loopHead_keep (p := p.atIndex _) hk hkeep p.atIndex_len_not_lt, runController_idle (endTransfer_seq ..),
    endTransfer_startCommand (hidle.afterBytes ..)]
  simp only [State.afterBytes, SeqPos.wholeTrace, hk, hkeep, and_self, if_true, List.append_nil, SeqPos.dataPhase_atEnd,
    Result.failBit, Result.code]

/-- After the last byte of any other transfer STOP frees the bus: one move (R187, R190). -/
theorem runController_end_stop (fuel : Nat) (hidle : s.Idle) (hn : n = p.len.toNat)
    (hk : p.kind = .receive ∨ p.kind = .transmit ∧ p.keep = false) (hhold : rest.head? ≠ some .hold) :
    runController (fuel + 1) (s.atByte p n raw m rest) =
      { s with
        env := rest, mem := m, resFail := false, resCode := 0, lastRaw := raw, busOpen := false, phase := .stopped,
        trace := s.trace ++ p.wholeTrace s.cfg s.mem n } := by
  have hfreed : ¬(p.kind = .transmit ∧ p.keep = true) := by
    obtain hk | ⟨-, hkeep⟩ := hk <;> simp [*]
  subst hn
  rw [State.atByte, loopHead_stop (p := p.atIndex _) hk p.atIndex_len_not_lt,
    runController_stop (res := .success) fuel (hidle.afterBytes ..) rfl hhold]
  simp only [State.afterBytes, SeqPos.wholeTrace, hfreed, if_false, List.append_assoc, Result.failBit, Result.code]

end

/-! The data phases of a transfer from its start -/

section
variable {s : State} {p : SeqPos} {st x y : Byte} {l : List (Byte × Byte)} {rest : List EnvEvent}

/-- A TRANSMIT whose START, address and first bytes are acknowledged comes to the next byte. -/
theorem runController_transmit_bytes (fuel : Nat) (hk : p.kind = .transmit) (hp : p.pc = .start) (hidx : p.idx = 0)
    (hst : st = s.cfg.codes.start ∨ st = s.cfg.codes.repStart) (hl : ∀ a ∈ l, a.1 = s.cfg.codes.mtDataAck)
    (hlen : l.length ≤ p.len.toNat) (hmem : ∀ i < l.length, memOkRead s.cfg (bufAddr s.cfg p.base i) = true)
    (he : s.env = answers ((st, x) :: (s.cfg.codes.mtSlaAck, y) :: l) ++ rest) :
    runController (2 * l.length + fuel + 1 + 1) (startCommand p s) =
      runController fuel (s.atByte p l.length (lastStatus s.cfg.codes.mtSlaAck l) s.mem rest) := by
  have hbytes := runController_writeBytes (k := 0) (raw := s.cfg.codes.mtSlaAck) (rest := rest) fuel hk hl
    (by rwa [Nat.zero_add]) (by simpa only [Nat.zero_add] using hmem)
  rw [Nat.zero_add] at hbytes
  exact (runController_header _ (by simp [hk]) hp hidx hst (by rw [hk]; rfl) he).trans hbytes

/-- A RECEIVE whose START and address are acknowledged and whose first reads each deliver a byte comes to the next read. -/
theorem runController_receive_bytes {got : List Byte} (fuel : Nat) (hk : p.kind = .receive) (hp : p.pc = .start)
    (hidx : p.idx = 0) (hst : st = s.cfg.codes.start ∨ st = s.cfg.codes.repStart) (hl : l.length = got.length)
    (hlen : got.length ≤ p.len.toNat)
    (hread : ∀ i (hr : i < l.length) (hg : i < got.length),
      readOutcome s.cfg (if i + 1 < p.len.toNat then .rbyteAck else .rbyteNack) l[i].1 l[i].2 = .okData got[i])
    (hmem : ∀ i < got.length, memOkWrite s.cfg (bufAddr s.cfg p.base i) = true) (hhold : rest.head? ≠ some .hold)
    (he : s.env = answers ((st, x) :: (s.cfg.codes.mrSlaAck, y) :: l) ++ rest) :
    runController (2 * got.length + fuel + 1 + 1) (startCommand p s) =
      runController fuel (s.atByte p got.length (lastStatus s.cfg.codes.mrSlaAck l)
        (s.mem.storeBytes s.cfg p.base 0 got) rest) := by
  have hbytes := runController_readBytes (k := 0) (raw := s.cfg.codes.mrSlaAck) (m := s.mem) fuel hk hhold hl
    (by rwa [Nat.zero_add]) (by simpa only [Nat.zero_add] using hread) (by simpa only [Nat.zero_add] using hmem)
  rw [Nat.zero_add] at hbytes
  exact (runController_header _ (by simp [hk]) hp hidx hst (by rw [hk]; rfl) he).trans hbytes

/-- Before byte k of n a command has moves left for that byte. -/
theorem exists_commandMoves_eq {n : Half} {k : Nat} (h : k < n.toNat) :
    ∃ fuel, commandMoves n = 2 * k + (fuel + 1 + 1) + 1 + 1 :=
  ⟨2 * (n.toNat - k) - 1, by rw [commandMoves_eq]; omega⟩

end

/-! TRANSMIT -/

/-- Settles O31: the bytes are written one by one, and what is left is the end of the data phases. -/
theorem transmitSucceeds : Obligations.TransmitSucceeds := by
  intro s sla keep st x y acks rest hidle hset hst hacks hmem hhold he
  have hl : ∀ a ∈ acks.map fun d => (s.cfg.codes.mtDataAck, d), a.1 = s.cfg.codes.mtDataAck := by simp
  have hlen : (acks.map fun d => (s.cfg.codes.mtDataAck, d)).length = s.len.toNat := by rw [List.length_map, hacks]
  have hzero : s.len.toNat = 0 ↔ s.len = 0 := by rw [BitVec.toNat_eq]; rfl
  have hbytes := runController_transmit_bytes (p := latched .transmit sla keep .start s) 1 rfl rfl rfl hst hl hlen.le
    (by rwa [hlen]) he
  rw [lastStatus_of_forall hl, hlen] at hbytes
  simp only [hzero] at hbytes
  rw [execTransmit_runs hidle.notBusy hset, commandMoves_eq, hbytes]
  cases keep with
  | true =>
    rw [runController_end_keep (n := s.len.toNat) 1 hidle rfl rfl rfl, latched_wholeTrace_transmit]
    rfl
  | false =>
    rw [runController_end_stop (n := s.len.toNat) 0 hidle rfl (.inr ⟨rfl, rfl⟩) hhold, latched_wholeTrace_transmit]
    rfl

/-- Settles O32: the first k bytes are written, and byte k's failure is the command's. -/
theorem transmitDataFailure : Obligations.TransmitDataFailure := by
  intro s sla keep st x y bad z acks rest hidle hset hst hacks hbad hmem he
  have hl : ∀ a ∈ acks.map fun d => (s.cfg.codes.mtDataAck, d), a.1 = s.cfg.codes.mtDataAck := by simp
  have hlen : (acks.map fun d => (s.cfg.codes.mtDataAck, d)).length = acks.length := List.length_map _
  have he : s.env = answers ((st, x) :: (s.cfg.codes.mtSlaAck, y) :: acks.map fun d => (s.cfg.codes.mtDataAck, d)) ++
      .answer bad z :: rest := by simpa using he
  obtain ⟨fuel, hfuel⟩ := exists_commandMoves_eq hacks
  have hbytes := runController_transmit_bytes (p := latched .transmit sla keep .start s) (fuel + 1 + 1) rfl rfl rfl hst hl
    (hlen.le.trans hacks.le) (fun i hi => hmem i (hi.le.trans hlen.le)) he
  rw [hlen, runController_writeByte_fail (p := latched .transmit sla keep .start s) fuel hidle rfl hacks (hmem _ le_rfl) hbad,
    ← hfuel, ← List.append_assoc] at hbytes
  exact (execTransmit_runs hidle.notBusy hset sla keep).trans (congrArg _ hbytes)

/-! RECEIVE -/

/-- Settles O36: the bytes are read one by one into their slots, and STOP ends the command. -/
theorem receiveSucceeds : Obligations.ReceiveSucceeds := by
  intro s sla st x y reads got rest hidle hset hwf hlen hst hreads hgot hread hmem hhold he
  have hrun := runController_receive_bytes (p := latched .receive sla false .start s) 1 rfl rfl rfl hst
    (hreads.trans hgot.symm) hgot.le hread (fun i hi => hmem i (hgot ▸ hi)) hhold he
  rw [runController_end_stop 0 hidle hgot (.inl rfl) hhold, latched_wholeTrace_receive, hgot] at hrun
  obtain ⟨hslots, hother⟩ := Memory.get_storeBytes_zero (c := s.cfg) (base := s.buf) hwf got
  refine ⟨_, (execReceive_runs hidle.notBusy hset hlen sla).trans (congrArg _ hrun), rfl,
    fun z hz => lastStatus_of_mem_getLast? hz, hslots, fun a ha => hother a ?_⟩
  rwa [hgot]

/-- Settles O37: the first k bytes are read into their slots, and the failure of read k waits for its STOP. -/
theorem receiveReadFailure : Obligations.ReceiveReadFailure := by
  intro s sla st x y bad z got rest hidle hset hwf hlegacy hgot hst hbad hmem hhold he
  have hlen : s.len ≠ 0 := fun h0 => by simp [h0] at hgot
  have he : s.env = answers ((st, x) :: (s.cfg.codes.mrSlaAck, y) :: got.map fun d => (s.cfg.codes.mrDataAck, d)) ++
      .answer bad z :: rest := by simpa using he
  have hread : ∀ i (hr : i < (got.map fun d => (s.cfg.codes.mrDataAck, d)).length) (hg : i < got.length),
      readOutcome s.cfg (if i + 1 < s.len.toNat then .rbyteAck else .rbyteNack)
        (got.map fun d => (s.cfg.codes.mrDataAck, d))[i].1 (got.map fun d => (s.cfg.codes.mrDataAck, d))[i].2 =
        .okData got[i] := by
    intro i _ hg
    rw [List.getElem_map]
    exact readOutcome_of_ok (statusOk_read_iff.mpr (if_pos (by omega)).symm) _
  obtain ⟨fuel, hfuel⟩ := exists_commandMoves_eq hgot
  have hrun := runController_receive_bytes (p := latched .receive sla false .start s) (fuel + 1 + 1) rfl rfl rfl hst
    (List.length_map _) hgot.le hread hmem (by simp) he
  rw [runController_readByte_fail (p := latched .receive sla false .start s) fuel hidle rfl hgot
    (readOutcome_of_not_ok (statusOk_read_iff.not.mpr hbad) hlegacy z) hhold, latched_wholeTrace_receive, ← hfuel] at hrun
  obtain ⟨hslots, hother⟩ := Memory.get_storeBytes_zero (c := s.cfg) (base := s.buf) hwf got
  exact ⟨_, (execReceive_runs hidle.notBusy hset hlen sla).trans (congrArg _ hrun), rfl, hslots, hother⟩

end Sys2Proof.Machine
end

section
/-! PROOFS. The formula of the default divisor (R222, R223), and INIT on an idle controller (R220, R221, R224, R225). -/

namespace Sys2Proof

/-! The default divisor -/

/-- The range on which the formula's value is from 0 to 255, cleared of the division (R223). -/
theorem defaultDivisor_isSome_iff {fClk f : Nat} :
    (defaultDivisor fClk f).isSome = true ↔ 16 * f ≤ fClk ∧ fClk ≤ 526 * f := by
  simp [defaultDivisor]

/-- A default divisor is the quotient itself: on the range of R223 it fits in 8 bits. -/
theorem toNat_of_defaultDivisor_eq_some {fClk f : Nat} {v : Byte} (hf : 0 < f) (hv : defaultDivisor fClk f = some v) :
    v.toNat = (fClk - 15 * f) / (2 * f) := by
  obtain ⟨-, hhigh⟩ := defaultDivisor_isSome_iff.mp (Option.isSome_of_eq_some hv)
  have hfits : (fClk - 15 * f) / (2 * f) < 2 ^ 8 := Nat.div_lt_of_lt_mul (by omega)
  obtain ⟨-, hquot⟩ := Option.ite_none_right_eq_some.mp hv
  rw [← Option.some.inj hquot, BitVec.toNat_ofNat, Nat.mod_eq_of_lt hfits]

/-- Settles O14: the divisor is the quotient of `F_CLK - 15 f` by `2 f`, and F_CLK is at least `16 f`, so the bounds of the
division are those of rounding. -/
theorem defaultDivisorRounds : Obligations.DefaultDivisorRounds := by
  intro fClk f hf
  refine ⟨defaultDivisor_isSome_iff, fun v hv => ?_⟩
  obtain ⟨hlow, -⟩ := defaultDivisor_isSome_iff.mp (Option.isSome_of_eq_some hv)
  have hle : 2 * f * ((fClk - 15 * f) / (2 * f)) ≤ fClk - 15 * f := Nat.mul_div_le ..
  have hlt : fClk - 15 * f < 2 * f * ((fClk - 15 * f) / (2 * f) + 1) := Nat.lt_mul_div_succ _ (by omega)
  rw [← toNat_of_defaultDivisor_eq_some hf hv] at hle hlt
  omega

end Sys2Proof

namespace Sys2Proof.Machine

/-! INIT -/

/-- The end of an INIT that configures on an idle controller: the registers of R220, RESULT, and the record of R221. -/
theorem endCommand_configure_startCommand_of_idle {s : State} (h : s.Idle) (p : SeqPos) (mode : ModeBits) (pu : Bool)
    (v : Byte) :
    endCommand .success (configure mode pu v (startCommand p s)) = { s with
      divValue := v, divSet := true, pullup := pu, mode := mode, configured := true, resFail := false, resCode := 0,
      configLog := s.configLog ++ [.pinsOutput pu, .pinsBusDriven, .writeDivisor 1 v] } := by
  obtain ⟨hbusy, hseq, hfree⟩ := h
  simp only [endCommand, setResult, configure, busConfigure, startCommand, Result.failBit, Result.code, hbusy, hseq, hfree]

/-- Settles O12: a recognized mode with an entry goes to the configuration, and neither CONFIGURED nor BUS_OPEN is
looked at. -/
theorem initConfigures : Obligations.InitConfigures := by
  intro s mode pu tb v hidle hmode htb hv
  simp only [exec, execInit, hidle.notBusy, hmode, htb, hv, Bool.false_eq_true, if_false,
    endCommand_configure_startCommand_of_idle hidle]

/-- Settles O15: mode 3 is turned away before the divisor table is looked at. -/
theorem initUnrecognizedModeFails : Obligations.InitUnrecognizedModeFails := by
  intro s pu hidle
  simp only [exec, execInit, hidle.notBusy, Bool.false_eq_true, if_false, if_true,
    endCommand_startCommand_of_idle hidle, errConfig]

end Sys2Proof.Machine
end

section
/-! PROOFS. A command whose every phase is answered, with a buffer the memory admits, ends (R248, R276): each word a transfer
sends takes one answer, but for STOP, which takes none, and so it never waits. -/

namespace Sys2Proof.Machine

/-! The words sent before a phase -/

theorem SeqPos.dataWords_length_le (c : Config) (m : Memory) (p : SeqPos) (k : Nat) : (p.dataWords c m k).length ≤ k := by
  unfold SeqPos.dataWords
  split
  · exact Nat.zero_le k
  · simp [writeWords]
  · simp

/-- Before a phase that waits for an answer, START, the address and at most n - 1 bytes have been sent (R185, R190). -/
theorem SeqPos.Reached.sentBefore_length_lt {c : Config} {m : Memory} {p : SeqPos} {u : MicroOp} (h : p.Reached c m)
    (hu : p.uop = some u) (hu' : u ≠ .stop) : (p.sentBefore c m).length < p.len.toNat + 2 := by
  have hdata : p.idx < p.len → (p.header ++ p.dataWords c m p.idx.toNat).length < p.len.toNat + 2 := fun hlt => by
    have hle := p.dataWords_length_le c m p.idx.toNat
    have hheader : p.header.length = 2 := rfl
    have hlt : p.idx.toNat < p.len.toNat := hlt
    rw [List.length_append]
    omega
  rw [SeqPos.Reached] at h
  rw [SeqPos.sentBefore]
  cases hpc : p.pc with
  | start => simp
  | waddr => simp
  | wbyte d =>
    rw [hpc] at h
    obtain ⟨-, hlt, -⟩ := h
    exact hdata hlt
  | rbyte =>
    rw [hpc] at h
    obtain ⟨-, hlt⟩ := h
    exact hdata hlt
  | stop res => exact absurd hpc (SeqPos.pc_ne_stop hu hu' res)
  | _ => simp [SeqPos.uop, hpc] at hu

/-! The answers left -/

/-- Every choice left is an answer, the answers left and the words in the trace are at least n together, no phase waits, and a
controller without a position is not busy. -/
structure State.Answered (n : Nat) (y : State) : Prop where
  answers : allAnswers y.env = true
  enough : n ≤ y.env.length + y.trace.length
  free : y.boundary = .free
  ended : y.seq = none → y.busy = false

theorem answer_of_allAnswers_cons {e : EnvEvent} {l : List EnvEvent} (h : allAnswers (e :: l) = true) :
    (∃ st d, e = .answer st d) ∧ allAnswers l = true := by
  cases e with
  | answer st d => exact ⟨⟨st, d, rfl⟩, h⟩
  | late => cases h
  | hold => cases h

namespace State.Answered

variable {n : Nat} {y : State}

theorem goto (h : y.Answered n) (p : SeqPos) (pc : SeqStep) : (goto p pc y).Answered n :=
  { h with ended := by simp }

theorem endTransfer (h : y.Answered n) (r : Result) : (endTransfer r y).Answered n :=
  { h with ended := fun _ => rfl }

theorem loopHead (h : y.Answered n) (p : SeqPos) : (loopHead p y).Answered n := by
  unfold Machine.loopHead
  split
  · exact h
  · split_ifs
    · exact h.goto ..
    · exact h.endTransfer _
    · exact h.goto ..
  · split_ifs <;> exact h.goto ..

theorem advance (h : y.Answered n) (p : SeqPos) (r : PrimOutcome) : (advance p r y).Answered n := by
  unfold Machine.advance
  split <;> simp only [h, h.goto, h.endTransfer, h.loopHead]

/-- No choice that is left holds the sequencer back. -/
theorem head?_ne_hold (h : y.Answered n) : y.env.head? ≠ some .hold := by
  have hall := h.answers
  cases henv : y.env with
  | nil => simp
  | cons e l =>
    rw [henv] at hall
    obtain ⟨⟨st, d, rfl⟩, -⟩ := answer_of_allAnswers_cons hall
    simp

end State.Answered

/-! The moves of an answered transfer -/

namespace Underway

variable {s x : State} {p₀ p : SeqPos} {n : Nat}

/-- At a phase that waits for an answer, one is left. -/
theorem exists_answer (h : Underway s p₀ p x) (ha : x.Answered n) (hn : s.trace.length + p₀.len.toNat + 2 ≤ n)
    {u : MicroOp} (hu : p.uop = some u) (hu' : u ≠ .stop) :
    ∃ st d rest, x.env = .answer st d :: rest ∧ allAnswers rest = true := by
  have henough := ha.enough
  have hall := ha.answers
  cases henv : x.env with
  | nil =>
    have hlt := h.reached.sentBefore_length_lt hu hu'
    have hlen : p.len = p₀.len := by rw [h.args]
    obtain ⟨-, htr⟩ | ⟨_, hw, -⟩ := h.sent
    · rw [henv, htr, List.length_append, List.length_nil] at henough
      rw [hlen] at hlt
      omega
    · rw [ha.free] at hw
      cases hw
  | cons e rest =>
    rw [henv] at hall
    obtain ⟨⟨st, d, rfl⟩, hrest⟩ := answer_of_allAnswers_cons hall
    exact ⟨st, d, rest, rfl, hrest⟩

/-- A move takes an answer for the word it sends, or sends none, or ends the command. -/
theorem controllerMove_answered (h : Underway s p₀ p x) (ha : x.Answered n)
    (hn : s.trace.length + p₀.len.toNat + 2 ≤ n) : (Machine.controllerMove x).Answered n := by
  have henough := ha.enough
  have hsend : ∀ u, p.uop = some u → u ≠ .stop → (Machine.controllerMove x).Answered n := by
    intro u hu hu'
    obtain ⟨st, d, rest, he, hrest⟩ := h.exists_answer ha hn hu hu'
    rw [Machine.controllerMove_answered h.seq ha.free hu hu' he]
    refine State.Answered.advance ?_ ..
    refine ⟨hrest, ?_, rfl, ha.ended⟩
    rw [he, List.length_cons] at henough
    simp only [List.length_append, List.length_singleton]
    omega
  have hreach := h.reached
  rw [SeqPos.Reached] at hreach
  cases hpc : p.pc with
  | configure => rw [hpc] at hreach; exact hreach.elim
  | start => exact hsend _ (SeqPos.uop_start hpc) (by simp)
  | waddr => exact hsend _ (SeqPos.uop_waddr hpc) (by simp)
  | load =>
    rw [controllerMove_load h.seq ha.free hpc]
    exact ha.goto ..
  | wbyte d => exact hsend _ (SeqPos.uop_wbyte hpc) (by simp)
  | rbyte => exact hsend _ (SeqPos.uop_rbyte hpc) (by split_ifs <;> simp)
  | store d =>
    rw [controllerMove_store h.seq ha.free hpc]
    refine State.Answered.loopHead ?_ _
    exact ⟨ha.answers, henough, ha.free, ha.ended⟩
  | stop res =>
    rw [controllerMove_stop h.seq ha.free hpc]
    refine State.Answered.endTransfer ?_ _
    refine ⟨ha.answers, ?_, rfl, ha.ended⟩
    simp only [List.length_append]
    omega

/-- Where no phase waits and no choice holds the sequencer back, a buffer the memory admits lets it move (R61, R63). -/
theorem canMove_of_admitted (h : Underway s p₀ p x) (hfree : x.boundary = .free) (hhold : x.env.head? ≠ some .hold)
    (hmem : ∀ k < p₀.len.toNat, memOkRead s.cfg (bufAddr s.cfg p₀.base k) = true ∧
      memOkWrite s.cfg (bufAddr s.cfg p₀.base k) = true) : x.canMove = true := by
  have hslot : p.idx < p.len → memOkRead x.cfg (p.addr x.cfg) = true ∧ memOkWrite x.cfg (p.addr x.cfg) = true := by
    intro hlt
    rw [h.cfg, h.args]
    rw [h.args] at hlt
    exact hmem _ hlt
  have hreach := h.reached
  rw [SeqPos.Reached] at hreach
  refine canMove_free h.seq hfree ?_ ?_ hhold
  · intro hpc
    rwa [hpc] at hreach
  · unfold memAdmits
    split
    next hpc =>
      rw [hpc] at hreach
      obtain ⟨-, hlt⟩ := hreach
      exact (hslot hlt).left
    next hpc =>
      rw [hpc] at hreach
      obtain ⟨-, hlt⟩ := hreach
      exact (hslot hlt).right
    · rfl

end Underway

/-! The end of an answered transfer -/

section
variable {s : State} {kind : CmdKind}

/-- Every state of a transfer with LEN + 2 answers has the answers it still needs. -/
theorem runController_answered (hkind : kind ≠ .init) (sla : SlaveAddr) (keep : Bool) (hans : allAnswers s.env = true)
    (hlen : s.len.toNat + 2 ≤ s.env.length) (fuel : Nat) :
    (runController fuel (startCommand (latched kind sla keep .start s) s)).Answered (s.env.length + s.trace.length) := by
  have hn : s.trace.length + s.len.toNat + 2 ≤ s.env.length + s.trace.length := by omega
  refine (runController_induct
    (P := fun x => TransferRun s (latched kind sla keep .start s) x ∧ x.Answered (s.env.length + s.trace.length))
    (fun x hx hmove => ⟨hx.left.controllerMove hmove, ?_⟩) fuel _
    ⟨startCommand_transferRun hkind sla keep, hans, le_rfl, rfl, by simp [startCommand]⟩).right
  obtain ⟨⟨p, h⟩ | h, ha⟩ := hx
  · exact h.controllerMove_answered ha hn
  · rwa [controllerMove_idle h.seq]

/-- The moves of a transfer that never has to wait end it. -/
theorem runController_ends (hkind : kind ≠ .init) (sla : SlaveAddr) (keep : Bool) (hans : allAnswers s.env = true)
    (hlen : s.len.toNat + 2 ≤ s.env.length)
    (hmem : ∀ k < s.len.toNat, memOkRead s.cfg (bufAddr s.cfg s.buf k) = true ∧
      memOkWrite s.cfg (bufAddr s.cfg s.buf k) = true) :
    (runController (commandMoves s.len) (startCommand (latched kind sla keep .start s) s)).busy = false := by
  have ha := runController_answered hkind sla keep hans hlen (commandMoves s.len)
  obtain ⟨p, h⟩ | h := runController_transferRun (s := s) hkind sla keep (commandMoves s.len)
  · have hmove := h.canMove_of_admitted ha.free ha.head?_ne_hold hmem
    rw [canMove_runController_commandMoves hkind sla keep] at hmove
    cases hmove
  · exact ha.ended h.seq

end

/-- Settles O41: INIT ends at once, and so does a transfer that is turned away; the moves of one that runs end it. -/
theorem answeredCommandEnds : Obligations.AnsweredCommandEnds := by
  intro s i hidle hadm hi hans hlen hmem
  cases i with
  | init mode pu => exact execInit_ends hidle.notBusy hadm mode pu
  | transmit sla keep =>
    by_cases hset : s.configured = true
    · exact ⟨_, execTransmit_runs hidle.notBusy hset sla keep, runController_ends (by decide) sla keep hans hlen hmem⟩
    · obtain ⟨hfails, -⟩ := transferBeforeInitFails s sla keep hidle (Bool.eq_false_iff.mpr hset)
      exact ⟨_, hfails, hidle.notBusy⟩
  | receive sla =>
    by_cases hset : s.configured = true
    · by_cases hzero : s.len = 0
      · exact ⟨_, receiveLengthZeroFails s sla hidle hset hzero, hidle.notBusy⟩
      · exact ⟨_, execReceive_runs hidle.notBusy hset hzero sla,
          runController_ends (by decide) sla false hans hlen hmem⟩
    · obtain ⟨-, hfails⟩ := transferBeforeInitFails s sla false hidle (Bool.eq_false_iff.mpr hset)
      exact ⟨_, hfails, hidle.notBusy⟩
  | _ => cases hi

end Sys2Proof.Machine
end
